-- ==== Sys2Proof/Word.lean ====
section
/-! DEFINITION. The word types of the block: bytes, 16-bit words and the cycle counter (R13, R14, R60). -/

namespace Sys2Proof

/-- An 8-bit value: a register, a memory byte, a port byte (R13). -/
abbrev Byte := BitVec 8

/-- A 16-bit value: an address, a register pair, an index register (R14). -/
abbrev Word := BitVec 16

/-- The cycle counter's type: `P_TSTATES_WIDTH` = 32 bits, wrapping (R17, R60). -/
abbrev Count := BitVec 32

end Sys2Proof
end

