-- ==== Sys2Proof/Machine/Bits.lean ====
section
/-! DEFINITION. Bit fields, byte order, sign extension and parity (R18, R19, R44, R65, R162). -/

namespace Sys2Proof.Machine

/-- `hi : lo`, the 16-bit value whose high byte is `hi` (R18, R44). -/
def join (hi lo : Byte) : Word := hi ++ lo

/-- Bits 15..8 of a word (R44). -/
def hiByte (v : Word) : Byte := v.extractLsb' 8 8

/-- Bits 7..0 of a word (R44). -/
def loByte (v : Word) : Byte := v.extractLsb' 0 8

/-- `sext_16(v)`: bit 7 is copied into bits 15..8 (R19). -/
def sext16 (v : Byte) : Word := v.signExtend 16

/-- `x = op[7:6]`, the quarter of the opcode map (R151). -/
def fieldX (op : Byte) : BitVec 2 := op.extractLsb' 6 2

/-- `y = op[5:3]` (R151). -/
def fieldY (op : Byte) : BitVec 3 := op.extractLsb' 3 3

/-- `z = op[2:0]` (R151). -/
def fieldZ (op : Byte) : BitVec 3 := op.extractLsb' 0 3

/-- `p = op[5:4]`, the register pair code (R151). -/
def fieldP (op : Byte) : BitVec 2 := op.extractLsb' 4 2

/-- `q = op[3]` (R151). -/
def fieldQ (op : Byte) : Bool := op.getLsbD 3

/-- `parity(v)`: true when `v` has an even number of 1 bits (R65). -/
def parity (v : Byte) : Bool :=
  !((v.getLsbD 0 ^^ v.getLsbD 1) ^^ (v.getLsbD 2 ^^ v.getLsbD 3) ^^
    ((v.getLsbD 4 ^^ v.getLsbD 5) ^^ (v.getLsbD 6 ^^ v.getLsbD 7)))

/-- A Boolean condition as one bit of arithmetic: 1 for true, 0 for false. -/
def bit (c : Bool) : Nat := cond c 1 0

end Sys2Proof.Machine
end

