-- ==== Sys2Proof/Machine/OpcodeClass.lean ====
section
/-! DEFINITION. The classes of opcode bytes under an index prefix (R157) and the ED holes (R159). -/

namespace Sys2Proof.Machine

/-- The bytes R157 class 1 lists: opcodes with an (HL) operand, which becomes (XY+d). -/
def class1Bytes : List Byte :=
  [0x34, 0x35, 0x36, 0x46, 0x4E, 0x56, 0x5E, 0x66, 0x6E, 0x7E, 0x70, 0x71, 0x72, 0x73, 0x74, 0x75, 0x77,
   0x86, 0x8E, 0x96, 0x9E, 0xA6, 0xAE, 0xB6, 0xBE]

/-- The bytes R157 class 2 lists: opcodes that use HL as a 16-bit register, which becomes XY. -/
def class2Bytes : List Byte :=
  [0x09, 0x19, 0x21, 0x22, 0x23, 0x29, 0x2A, 0x2B, 0x39, 0xE1, 0xE3, 0xE5, 0xE9, 0xF9]

/-- The bytes R157 class 3 lists: opcodes that use H or L as an 8-bit register, which becomes XYH or XYL. -/
def class3Bytes : List Byte :=
  [0x24, 0x25, 0x26, 0x2C, 0x2D, 0x2E, 0x44, 0x45, 0x4C, 0x4D, 0x54, 0x55, 0x5C, 0x5D, 0x60, 0x61, 0x62, 0x63,
   0x64, 0x65, 0x67, 0x68, 0x69, 0x6A, 0x6B, 0x6C, 0x6D, 0x6F, 0x7C, 0x7D, 0x84, 0x85, 0x8C, 0x8D, 0x94, 0x95,
   0x9C, 0x9D, 0xA4, 0xA5, 0xAC, 0xAD, 0xB4, 0xB5, 0xBC, 0xBD]

/-- The four prefix bytes (R29). -/
def prefixBytes : List Byte := [0xDD, 0xFD, 0xCB, 0xED]

/-- Class 4 of R157: an opcode byte with no HL, H or L use, which an index prefix does not change (R160). -/
def isClass4 (w : Byte) : Bool :=
  !(class1Bytes.contains w || class2Bytes.contains w || class3Bytes.contains w || prefixBytes.contains w)

/-- The second bytes of the ED holes: 00-3F, 77, 7F, 80-9F, A4-A7, AC-AF, B4-B7 and BC-FF (R159). -/
def isEdHole (w : Byte) : Bool :=
  w.toNat ≤ 0x3F || w == 0x77 || w == 0x7F || (0x80 ≤ w.toNat && w.toNat ≤ 0x9F) ||
    (0xA4 ≤ w.toNat && w.toNat ≤ 0xA7) || (0xAC ≤ w.toNat && w.toNat ≤ 0xAF) ||
    (0xB4 ≤ w.toNat && w.toNat ≤ 0xB7) || 0xBC ≤ w.toNat

end Sys2Proof.Machine
end

