-- ==== Sys2Proof/Syntax.lean ====
section
/-! DEFINITION. The instructions as syntax: one constructor of `Instr` per mnemonic of spec/opcode_table.json,
with the operand names of 10_state.md section 6 and 30_encoding.md. -/

namespace Sys2Proof

/-- The plain 8-bit registers a 3-bit code can name; code 110 is no register (R50). -/
inductive Reg8 where
  | b | c | d | e | h | l | a
  deriving DecidableEq, Repr

/-- The index register an index prefix selects: 0xDD is IX, 0xFD is IY (R157). -/
inductive IndexReg where
  | ix | iy
  deriving DecidableEq, Repr

/-- A half of an index register: XYH or XYL (R42, R158). -/
inductive Half where
  | high | low
  deriving DecidableEq, Repr

/-- The pairs `rp[p]` (R51). -/
inductive Pair where
  | bc | de | hl | sp
  deriving DecidableEq, Repr

/-- The pairs `rp2[q]` of PUSH and POP (R52). -/
inductive StackPair where
  | bc | de | hl | af
  deriving DecidableEq, Repr

/-- The second operand of `ADD XY,pp`: code 10 is XY itself (R403). -/
inductive IndexPair where
  | bc | de | self | sp
  deriving DecidableEq, Repr

/-- The conditions `cond[c]` (R66). -/
inductive Cond where
  | nz | z | nc | c | po | pe | p | m
  deriving DecidableEq, Repr

/-- The eight ALU operations in the order of the opcode field y (R163, R320). -/
inductive AluOp where
  | add | adc | sub | sbc | and | xor | or | cp
  deriving DecidableEq, Repr

/-- The eight rotate and shift operations in the order of the opcode field y (R164). -/
inductive RotOp where
  | rlc | rrc | rl | rr | sla | sra | sll | srl
  deriving DecidableEq, Repr

/-- The instructions. `i` is the index register of the instruction's own index prefix; `d` a displacement byte,
`e` a relative offset byte, `n` an immediate byte, `nn` an immediate word (R162). -/
inductive Instr where
  -- 8-bit loads (41_load8.md)
  /-- `LD r,s` (R201). -/
  | ldRR (r : Reg8) (s : Reg8)
  /-- `LD r,n` (R202). -/
  | ldRN (r : Reg8) (n : Byte)
  /-- `LD r,(HL)` (R203). -/
  | ldRIndHL (r : Reg8)
  /-- `LD r,(XY+d)` (R204). -/
  | ldRIndXY (i : IndexReg) (r : Reg8) (d : Byte)
  /-- `LD (HL),s` (R205). -/
  | ldIndHLR (s : Reg8)
  /-- `LD (XY+d),s` (R206). -/
  | ldIndXYR (i : IndexReg) (s : Reg8) (d : Byte)
  /-- `LD (HL),n` (R207). -/
  | ldIndHLN (n : Byte)
  /-- `LD (XY+d),n` (R208). -/
  | ldIndXYN (i : IndexReg) (d : Byte) (n : Byte)
  /-- `LD A,(BC)` (R209). -/
  | ldAIndBC
  /-- `LD A,(DE)` (R210). -/
  | ldAIndDE
  /-- `LD A,(nn)` (R211). -/
  | ldAMem (nn : Word)
  /-- `LD (BC),A` (R212). -/
  | ldIndBCA
  /-- `LD (DE),A` (R213). -/
  | ldIndDEA
  /-- `LD (nn),A` (R214). -/
  | ldMemA (nn : Word)
  /-- `LD A,I` (R215). -/
  | ldAI
  /-- `LD A,R` (R216). -/
  | ldAR
  /-- `LD I,A` (R217). -/
  | ldIA
  /-- `LD R,A` (R218). -/
  | ldRA
  /-- `LD r,XYH/XYL`, r not H or L (R219). -/
  | ldRHalf (i : IndexReg) (r : Reg8) (h : Half)
  /-- `LD XYH/XYL,s`; s = H or L means XYH or XYL (R219). -/
  | ldHalfR (i : IndexReg) (h : Half) (s : Reg8)
  /-- `LD XYH/XYL,n` (R220). -/
  | ldHalfN (i : IndexReg) (h : Half) (n : Byte)
  -- 16-bit loads and the stack (42_load16_stack.md)
  /-- `LD dd,nn` (R240). -/
  | ldPairNN (p : Pair) (nn : Word)
  /-- `LD XY,nn` (R241). -/
  | ldXYNN (i : IndexReg) (nn : Word)
  /-- `LD HL,(nn)` (R242). -/
  | ldHLMem (nn : Word)
  /-- `LD dd,(nn)`, the ED form (R243). -/
  | ldPairMem (p : Pair) (nn : Word)
  /-- `LD XY,(nn)` (R244). -/
  | ldXYMem (i : IndexReg) (nn : Word)
  /-- `LD (nn),HL` (R245). -/
  | ldMemHL (nn : Word)
  /-- `LD (nn),dd`, the ED form (R246). -/
  | ldMemPair (p : Pair) (nn : Word)
  /-- `LD (nn),XY` (R247). -/
  | ldMemXY (i : IndexReg) (nn : Word)
  /-- `LD SP,HL` (R248). -/
  | ldSPHL
  /-- `LD SP,XY` (R249). -/
  | ldSPXY (i : IndexReg)
  /-- `PUSH qq` (R251). -/
  | pushPair (q : StackPair)
  /-- `PUSH XY` (R252). -/
  | pushXY (i : IndexReg)
  /-- `POP qq` (R253). -/
  | popPair (q : StackPair)
  /-- `POP XY` (R254). -/
  | popXY (i : IndexReg)
  -- exchange, block transfer and search (43_exchange_block.md)
  /-- `EX DE,HL` (R280). -/
  | exDEHL
  /-- `EX AF,AF'` (R281). -/
  | exAFAF
  /-- `EXX` (R282). -/
  | exx
  /-- `EX (SP),HL` (R283). -/
  | exSPHL
  /-- `EX (SP),XY` (R284). -/
  | exSPXY (i : IndexReg)
  /-- `LDI` (R286). -/
  | ldi
  /-- `LDIR` (R287). -/
  | ldir
  /-- `LDD` (R288). -/
  | ldd
  /-- `LDDR` (R289). -/
  | lddr
  /-- `CPI` (R290). -/
  | cpi
  /-- `CPIR` (R291). -/
  | cpir
  /-- `CPD` (R292). -/
  | cpd
  /-- `CPDR` (R293). -/
  | cpdr
  -- 8-bit arithmetic and logic (44_arith8_logic.md)
  /-- `ADD A,s` (R323). -/
  | addR (s : Reg8)
  /-- `ADD A,n` (R323). -/
  | addN (n : Byte)
  /-- `ADD A,(HL)` (R323). -/
  | addIndHL
  /-- `ADD A,(XY+d)` (R323). -/
  | addIndXY (i : IndexReg) (d : Byte)
  /-- `ADD A,XYH/XYL` (R323). -/
  | addHalf (i : IndexReg) (h : Half)
  /-- `ADC A,s` (R324). -/
  | adcR (s : Reg8)
  /-- `ADC A,n` (R324). -/
  | adcN (n : Byte)
  /-- `ADC A,(HL)` (R324). -/
  | adcIndHL
  /-- `ADC A,(XY+d)` (R324). -/
  | adcIndXY (i : IndexReg) (d : Byte)
  /-- `ADC A,XYH/XYL` (R324). -/
  | adcHalf (i : IndexReg) (h : Half)
  /-- `SUB s` (R325). -/
  | subR (s : Reg8)
  /-- `SUB n` (R325). -/
  | subN (n : Byte)
  /-- `SUB (HL)` (R325). -/
  | subIndHL
  /-- `SUB (XY+d)` (R325). -/
  | subIndXY (i : IndexReg) (d : Byte)
  /-- `SUB XYH/XYL` (R325). -/
  | subHalf (i : IndexReg) (h : Half)
  /-- `SBC A,s` (R326). -/
  | sbcR (s : Reg8)
  /-- `SBC A,n` (R326). -/
  | sbcN (n : Byte)
  /-- `SBC A,(HL)` (R326). -/
  | sbcIndHL
  /-- `SBC A,(XY+d)` (R326). -/
  | sbcIndXY (i : IndexReg) (d : Byte)
  /-- `SBC A,XYH/XYL` (R326). -/
  | sbcHalf (i : IndexReg) (h : Half)
  /-- `AND s` (R327). -/
  | andR (s : Reg8)
  /-- `AND n` (R327). -/
  | andN (n : Byte)
  /-- `AND (HL)` (R327). -/
  | andIndHL
  /-- `AND (XY+d)` (R327). -/
  | andIndXY (i : IndexReg) (d : Byte)
  /-- `AND XYH/XYL` (R327). -/
  | andHalf (i : IndexReg) (h : Half)
  /-- `XOR s` (R328). -/
  | xorR (s : Reg8)
  /-- `XOR n` (R328). -/
  | xorN (n : Byte)
  /-- `XOR (HL)` (R328). -/
  | xorIndHL
  /-- `XOR (XY+d)` (R328). -/
  | xorIndXY (i : IndexReg) (d : Byte)
  /-- `XOR XYH/XYL` (R328). -/
  | xorHalf (i : IndexReg) (h : Half)
  /-- `OR s` (R329). -/
  | orR (s : Reg8)
  /-- `OR n` (R329). -/
  | orN (n : Byte)
  /-- `OR (HL)` (R329). -/
  | orIndHL
  /-- `OR (XY+d)` (R329). -/
  | orIndXY (i : IndexReg) (d : Byte)
  /-- `OR XYH/XYL` (R329). -/
  | orHalf (i : IndexReg) (h : Half)
  /-- `CP s` (R330). -/
  | cpR (s : Reg8)
  /-- `CP n` (R330). -/
  | cpN (n : Byte)
  /-- `CP (HL)` (R330). -/
  | cpIndHL
  /-- `CP (XY+d)` (R330). -/
  | cpIndXY (i : IndexReg) (d : Byte)
  /-- `CP XYH/XYL` (R330). -/
  | cpHalf (i : IndexReg) (h : Half)
  /-- `INC r` (R331). -/
  | incR (r : Reg8)
  /-- `INC (HL)` (R332). -/
  | incIndHL
  /-- `INC (XY+d)` (R333). -/
  | incIndXY (i : IndexReg) (d : Byte)
  /-- `INC XYH/XYL` (R331). -/
  | incHalf (i : IndexReg) (h : Half)
  /-- `DEC r` (R334). -/
  | decR (r : Reg8)
  /-- `DEC (HL)` (R335). -/
  | decIndHL
  /-- `DEC (XY+d)` (R336). -/
  | decIndXY (i : IndexReg) (d : Byte)
  /-- `DEC XYH/XYL` (R334). -/
  | decHalf (i : IndexReg) (h : Half)
  -- general-purpose arithmetic and CPU control (45_general_cpu_control.md)
  /-- `DAA` (R360). -/
  | daa
  /-- `CPL` (R361). -/
  | cpl
  /-- `NEG`, ED 44 (R362). -/
  | neg
  /-- `NEG`, ED 01yyy100 with y not 0 (R158, R362). -/
  | negDup (y : BitVec 3)
  /-- `CCF` (R363). -/
  | ccf
  /-- `SCF` (R364). -/
  | scf
  /-- `NOP` (R365). -/
  | nop
  /-- `HALT` (R366). -/
  | halt
  /-- `DI` (R367). -/
  | di
  /-- `EI` (R368). -/
  | ei
  /-- `IM 0`, ED 46 (R369). -/
  | im0
  /-- `IM 0`, ED 01yyy110 with y = 1, 4 or 5 (R158, R369). -/
  | im0Dup (y : BitVec 3)
  /-- `IM 1`, ED 56 (R369). -/
  | im1
  /-- `IM 1`, ED 76 (R158, R369). -/
  | im1Dup
  /-- `IM 2`, ED 5E (R369). -/
  | im2
  /-- `IM 2`, ED 7E (R158, R369). -/
  | im2Dup
  /-- ED followed by a second byte `w` that R159 lists as a hole (R370). -/
  | edHole (w : Byte)
  -- 16-bit arithmetic (46_arith16.md)
  /-- `ADD HL,ss` (R400). -/
  | addHLPair (p : Pair)
  /-- `ADC HL,ss` (R401). -/
  | adcHLPair (p : Pair)
  /-- `SBC HL,ss` (R402). -/
  | sbcHLPair (p : Pair)
  /-- `ADD XY,pp`; the pair code 10 is XY itself (R403). -/
  | addXYPair (i : IndexReg) (p : IndexPair)
  /-- `INC ss` (R404). -/
  | incPair (p : Pair)
  /-- `INC XY` (R405). -/
  | incXY (i : IndexReg)
  /-- `DEC ss` (R406). -/
  | decPair (p : Pair)
  /-- `DEC XY` (R407). -/
  | decXY (i : IndexReg)
  -- rotates, shifts and bit operations (47_rotate_shift_bit.md)
  /-- `RLCA` (R440). -/
  | rlca
  /-- `RLA` (R441). -/
  | rla
  /-- `RRCA` (R442). -/
  | rrca
  /-- `RRA` (R443). -/
  | rra
  /-- `RLC s` (R445). -/
  | rlcR (s : Reg8)
  /-- `RLC (HL)` (R445). -/
  | rlcIndHL
  /-- `RLC (XY+d)` (R445). -/
  | rlcIndXY (i : IndexReg) (d : Byte)
  /-- `RLC (XY+d)`, the result also copied to `s` (R444, R445). -/
  | rlcIndXYR (i : IndexReg) (d : Byte) (s : Reg8)
  /-- `RRC s` (R446). -/
  | rrcR (s : Reg8)
  /-- `RRC (HL)` (R446). -/
  | rrcIndHL
  /-- `RRC (XY+d)` (R446). -/
  | rrcIndXY (i : IndexReg) (d : Byte)
  /-- `RRC (XY+d)`, the result also copied to `s` (R444, R446). -/
  | rrcIndXYR (i : IndexReg) (d : Byte) (s : Reg8)
  /-- `RL s` (R447). -/
  | rlR (s : Reg8)
  /-- `RL (HL)` (R447). -/
  | rlIndHL
  /-- `RL (XY+d)` (R447). -/
  | rlIndXY (i : IndexReg) (d : Byte)
  /-- `RL (XY+d)`, the result also copied to `s` (R444, R447). -/
  | rlIndXYR (i : IndexReg) (d : Byte) (s : Reg8)
  /-- `RR s` (R448). -/
  | rrR (s : Reg8)
  /-- `RR (HL)` (R448). -/
  | rrIndHL
  /-- `RR (XY+d)` (R448). -/
  | rrIndXY (i : IndexReg) (d : Byte)
  /-- `RR (XY+d)`, the result also copied to `s` (R444, R448). -/
  | rrIndXYR (i : IndexReg) (d : Byte) (s : Reg8)
  /-- `SLA s` (R449). -/
  | slaR (s : Reg8)
  /-- `SLA (HL)` (R449). -/
  | slaIndHL
  /-- `SLA (XY+d)` (R449). -/
  | slaIndXY (i : IndexReg) (d : Byte)
  /-- `SLA (XY+d)`, the result also copied to `s` (R444, R449). -/
  | slaIndXYR (i : IndexReg) (d : Byte) (s : Reg8)
  /-- `SRA s` (R450). -/
  | sraR (s : Reg8)
  /-- `SRA (HL)` (R450). -/
  | sraIndHL
  /-- `SRA (XY+d)` (R450). -/
  | sraIndXY (i : IndexReg) (d : Byte)
  /-- `SRA (XY+d)`, the result also copied to `s` (R444, R450). -/
  | sraIndXYR (i : IndexReg) (d : Byte) (s : Reg8)
  /-- `SLL s` (R451). -/
  | sllR (s : Reg8)
  /-- `SLL (HL)` (R451). -/
  | sllIndHL
  /-- `SLL (XY+d)` (R451). -/
  | sllIndXY (i : IndexReg) (d : Byte)
  /-- `SLL (XY+d)`, the result also copied to `s` (R444, R451). -/
  | sllIndXYR (i : IndexReg) (d : Byte) (s : Reg8)
  /-- `SRL s` (R452). -/
  | srlR (s : Reg8)
  /-- `SRL (HL)` (R452). -/
  | srlIndHL
  /-- `SRL (XY+d)` (R452). -/
  | srlIndXY (i : IndexReg) (d : Byte)
  /-- `SRL (XY+d)`, the result also copied to `s` (R444, R452). -/
  | srlIndXYR (i : IndexReg) (d : Byte) (s : Reg8)
  /-- `RLD` (R453). -/
  | rld
  /-- `RRD` (R454). -/
  | rrd
  /-- `BIT b,s` (R455). -/
  | bitR (b : BitVec 3) (s : Reg8)
  /-- `BIT b,(HL)` (R455). -/
  | bitIndHL (b : BitVec 3)
  /-- `BIT b,(XY+d)` (R455). -/
  | bitIndXY (i : IndexReg) (d : Byte) (b : BitVec 3)
  /-- `BIT b,(XY+d)` with an ignored register field `s` (R158, R455). -/
  | bitIndXYDup (i : IndexReg) (d : Byte) (b : BitVec 3) (s : Reg8)
  /-- `SET b,s` (R456). -/
  | setR (b : BitVec 3) (s : Reg8)
  /-- `SET b,(HL)` (R456). -/
  | setIndHL (b : BitVec 3)
  /-- `SET b,(XY+d)` (R456). -/
  | setIndXY (i : IndexReg) (d : Byte) (b : BitVec 3)
  /-- `SET b,(XY+d)`, the result also copied to `s` (R444, R456). -/
  | setIndXYR (i : IndexReg) (d : Byte) (b : BitVec 3) (s : Reg8)
  /-- `RES b,s` (R457). -/
  | resR (b : BitVec 3) (s : Reg8)
  /-- `RES b,(HL)` (R457). -/
  | resIndHL (b : BitVec 3)
  /-- `RES b,(XY+d)` (R457). -/
  | resIndXY (i : IndexReg) (d : Byte) (b : BitVec 3)
  /-- `RES b,(XY+d)`, the result also copied to `s` (R444, R457). -/
  | resIndXYR (i : IndexReg) (d : Byte) (b : BitVec 3) (s : Reg8)
  -- jumps, calls and returns (48_control_transfer.md)
  /-- `JP nn` (R500). -/
  | jp (nn : Word)
  /-- `JP cc,nn` (R501). -/
  | jpCond (cc : Cond) (nn : Word)
  /-- `JR e` (R502). -/
  | jr (e : Byte)
  /-- `JR cc,e`, cc one of NZ, Z, NC, C (R503). -/
  | jrCond (cc : Cond) (e : Byte)
  /-- `JP (HL)` (R504). -/
  | jpHL
  /-- `JP (XY)` (R505). -/
  | jpXY (i : IndexReg)
  /-- `DJNZ e` (R506). -/
  | djnz (e : Byte)
  /-- `CALL nn` (R507). -/
  | call (nn : Word)
  /-- `CALL cc,nn` (R508). -/
  | callCond (cc : Cond) (nn : Word)
  /-- `RET` (R509). -/
  | ret
  /-- `RET cc` (R510). -/
  | retCond (cc : Cond)
  /-- `RETI`, ED 4D (R530). -/
  | reti
  /-- `RETN`, ED 45 (R531). -/
  | retn
  /-- `RETN`, ED 01yyy101 with y not 0 or 1 (R158, R531). -/
  | retnDup (y : BitVec 3)
  /-- `RST p`, p = t * 8 (R532). -/
  | rst (t : BitVec 3)
  -- input and output (49_io.md)
  /-- `IN A,(n)` (R561). -/
  | inAN (n : Byte)
  /-- `IN r,(C)` (R562). -/
  | inRC (r : Reg8)
  /-- `IN F,(C)`, ED 70 (R563). -/
  | inFC
  /-- `INI` (R564). -/
  | ini
  /-- `INIR` (R565). -/
  | inir
  /-- `IND` (R566). -/
  | ind
  /-- `INDR` (R567). -/
  | indr
  /-- `OUT (n),A` (R568). -/
  | outNA (n : Byte)
  /-- `OUT (C),r` (R569). -/
  | outCR (r : Reg8)
  /-- `OUT (C),0`, ED 71 (R570). -/
  | outC0
  /-- `OUTI` (R571). -/
  | outi
  /-- `OTIR` (R572). -/
  | otir
  /-- `OUTD` (R573). -/
  | outd
  /-- `OTDR` (R574). -/
  | otdr
  -- prefix bytes (30_encoding.md)
  /-- the byte 0xCB alone: it selects the CB map (R155). -/
  | prefixCB
  /-- the byte 0xED alone: it selects the ED map (R155). -/
  | prefixED
  /-- an index prefix byte: it sets `prefix` and the dispatcher loops (R153). -/
  | prefixIndex (i : IndexReg)
  /-- an index prefix before 0xCB: it selects the xycb map (R155, R167). -/
  | prefixCBAfterIndex (i : IndexReg)
  /-- an index prefix before 0xED, which ignores it (R155, R160). -/
  | prefixEDAfterIndex (i : IndexReg)
  /-- an index prefix before another index prefix `j`, which replaces it (R154). -/
  | prefixRestart (i : IndexReg) (j : IndexReg)
  /-- an index prefix before an opcode `w` of class 4, which ignores it (R157, R160). -/
  | ignoredIndexPrefix (i : IndexReg) (w : Byte)
  deriving DecidableEq, Repr

end Sys2Proof
end

