-- ==== Sys2Proof/WellFormed.lean ====
section
/-! DEFINITION. Which instruction terms are encodings of the opcode table: the field values its rows exclude. -/

namespace Sys2Proof

/-- The operand checks of spec/opcode_table.json's excluded field values; every other constructor is well formed with
any operands. `JR cc` uses only NZ, Z, NC and C (R503); `LD r,XYH/XYL` excludes the codes of H and L (R219); the
duplicates exclude the documented field value (R158); an ED hole is a byte R159 lists; an ignored index prefix stands
before a byte of class 4 (R157). -/
def Instr.wellFormed : Instr → Bool
  | .jrCond cc _ => cc == .nz || cc == .z || cc == .nc || cc == .c
  | .ldRHalf _ r _ => r != .h && r != .l
  | .negDup y => y != 0
  | .retnDup y => y != 0 && y != 1
  | .im0Dup y => y == 1 || y == 4 || y == 5
  | .edHole w => Machine.isEdHole w
  | .ignoredIndexPrefix _ w => Machine.isClass4 w
  | _ => true

end Sys2Proof
end

