-- ==== Sys2Proof/Decode.lean ====
section
/-! DEFINITION. Decoding bytes (30_encoding.md), and after it the encoder. Every byte sequence decodes (R156); a list of
bytes that ends before its instruction does is rejected by name. -/

namespace Sys2Proof

open Machine (join fieldX fieldY fieldZ fieldP fieldQ)

/-! ### Codes of operands -/

/-- `x[k]` as a plain register; code 110 names none (R50). -/
def Reg8.ofCode (k : BitVec 3) : Option Reg8 :=
  match k.toNat with
  | 0 => some .b
  | 1 => some .c
  | 2 => some .d
  | 3 => some .e
  | 4 => some .h
  | 5 => some .l
  | 6 => none
  | _ => some .a

/-- The code of a plain register (R50). -/
def Reg8.code : Reg8 → BitVec 3
  | .b => 0
  | .c => 1
  | .d => 2
  | .e => 3
  | .h => 4
  | .l => 5
  | .a => 7

/-- `rp[p]` (R51). -/
def Pair.ofCode (p : BitVec 2) : Pair :=
  match p.toNat with
  | 0 => .bc
  | 1 => .de
  | 2 => .hl
  | _ => .sp

/-- The code of a pair (R51). -/
def Pair.code : Pair → BitVec 2
  | .bc => 0
  | .de => 1
  | .hl => 2
  | .sp => 3

/-- `rp2[q]` (R52). -/
def StackPair.ofCode (p : BitVec 2) : StackPair :=
  match p.toNat with
  | 0 => .bc
  | 1 => .de
  | 2 => .hl
  | _ => .af

/-- The code of a stack pair (R52). -/
def StackPair.code : StackPair → BitVec 2
  | .bc => 0
  | .de => 1
  | .hl => 2
  | .af => 3

/-- The second operand of `ADD XY,pp` (R403). -/
def IndexPair.ofCode (p : BitVec 2) : IndexPair :=
  match p.toNat with
  | 0 => .bc
  | 1 => .de
  | 2 => .self
  | _ => .sp

/-- The code of the second operand of `ADD XY,pp` (R403). -/
def IndexPair.code : IndexPair → BitVec 2
  | .bc => 0
  | .de => 1
  | .self => 2
  | .sp => 3

/-- `cond[c]` (R66). -/
def Cond.ofCode (k : BitVec 3) : Cond :=
  match k.toNat with
  | 0 => .nz
  | 1 => .z
  | 2 => .nc
  | 3 => .c
  | 4 => .po
  | 5 => .pe
  | 6 => .p
  | _ => .m

/-- The code of a condition (R66). -/
def Cond.code : Cond → BitVec 3
  | .nz => 0
  | .z => 1
  | .nc => 2
  | .c => 3
  | .po => 4
  | .pe => 5
  | .p => 6
  | .m => 7

/-- The ALU operation of field y (R163). -/
def AluOp.ofCode (k : BitVec 3) : AluOp :=
  match k.toNat with
  | 0 => .add
  | 1 => .adc
  | 2 => .sub
  | 3 => .sbc
  | 4 => .and
  | 5 => .xor
  | 6 => .or
  | _ => .cp

/-- The code of an ALU operation (R163). -/
def AluOp.code : AluOp → BitVec 3
  | .add => 0
  | .adc => 1
  | .sub => 2
  | .sbc => 3
  | .and => 4
  | .xor => 5
  | .or => 6
  | .cp => 7

/-- The rotate or shift operation of field y (R164). -/
def RotOp.ofCode (k : BitVec 3) : RotOp :=
  match k.toNat with
  | 0 => .rlc
  | 1 => .rrc
  | 2 => .rl
  | 3 => .rr
  | 4 => .sla
  | 5 => .sra
  | 6 => .sll
  | _ => .srl

/-- The code of a rotate or shift operation (R164). -/
def RotOp.code : RotOp → BitVec 3
  | .rlc => 0
  | .rrc => 1
  | .rl => 2
  | .rr => 3
  | .sla => 4
  | .sra => 5
  | .sll => 6
  | .srl => 7

/-- The half that codes 100 (XYH) and 101 (XYL) name under an index prefix (R157 class 3). -/
def Half.ofCode (k : BitVec 3) : Option Half :=
  match k.toNat with
  | 4 => some .high
  | 5 => some .low
  | _ => none

/-- The code of a half (R157 class 3). -/
def Half.code : Half → BitVec 3
  | .high => 4
  | .low => 5

/-- The index register a prefix byte selects, if the byte is an index prefix (R157). -/
def IndexReg.ofByte (b : Byte) : Option IndexReg :=
  if b = 0xDD then some .ix else if b = 0xFD then some .iy else none

/-- The index prefix byte (R157). -/
def IndexReg.byte : IndexReg → Byte
  | .ix => 0xDD
  | .iy => 0xFD

/-! ### The constructors of an ALU or rotate operation, form by form -/

/-- The ALU operation on a register (R320). -/
def aluR (s : Reg8) : AluOp → Instr
  | .add => .addR s
  | .adc => .adcR s
  | .sub => .subR s
  | .sbc => .sbcR s
  | .and => .andR s
  | .xor => .xorR s
  | .or => .orR s
  | .cp => .cpR s

/-- The ALU operation on an immediate (R320). -/
def aluN (n : Byte) : AluOp → Instr
  | .add => .addN n
  | .adc => .adcN n
  | .sub => .subN n
  | .sbc => .sbcN n
  | .and => .andN n
  | .xor => .xorN n
  | .or => .orN n
  | .cp => .cpN n

/-- The ALU operation on (HL) (R320). -/
def aluIndHL : AluOp → Instr
  | .add => .addIndHL
  | .adc => .adcIndHL
  | .sub => .subIndHL
  | .sbc => .sbcIndHL
  | .and => .andIndHL
  | .xor => .xorIndHL
  | .or => .orIndHL
  | .cp => .cpIndHL

/-- The ALU operation on (XY+d) (R320). -/
def aluIndXY (i : IndexReg) (d : Byte) : AluOp → Instr
  | .add => .addIndXY i d
  | .adc => .adcIndXY i d
  | .sub => .subIndXY i d
  | .sbc => .sbcIndXY i d
  | .and => .andIndXY i d
  | .xor => .xorIndXY i d
  | .or => .orIndXY i d
  | .cp => .cpIndXY i d

/-- The ALU operation on XYH or XYL (R320). -/
def aluHalf (i : IndexReg) (h : Half) : AluOp → Instr
  | .add => .addHalf i h
  | .adc => .adcHalf i h
  | .sub => .subHalf i h
  | .sbc => .sbcHalf i h
  | .and => .andHalf i h
  | .xor => .xorHalf i h
  | .or => .orHalf i h
  | .cp => .cpHalf i h

/-- The rotate or shift of a register (R444). -/
def rotR (s : Reg8) : RotOp → Instr
  | .rlc => .rlcR s
  | .rrc => .rrcR s
  | .rl => .rlR s
  | .rr => .rrR s
  | .sla => .slaR s
  | .sra => .sraR s
  | .sll => .sllR s
  | .srl => .srlR s

/-- The rotate or shift of (HL) (R444). -/
def rotIndHL : RotOp → Instr
  | .rlc => .rlcIndHL
  | .rrc => .rrcIndHL
  | .rl => .rlIndHL
  | .rr => .rrIndHL
  | .sla => .slaIndHL
  | .sra => .sraIndHL
  | .sll => .sllIndHL
  | .srl => .srlIndHL

/-- The rotate or shift of (XY+d) (R444). -/
def rotIndXY (i : IndexReg) (d : Byte) : RotOp → Instr
  | .rlc => .rlcIndXY i d
  | .rrc => .rrcIndXY i d
  | .rl => .rlIndXY i d
  | .rr => .rrIndXY i d
  | .sla => .slaIndXY i d
  | .sra => .sraIndXY i d
  | .sll => .sllIndXY i d
  | .srl => .srlIndXY i d

/-- The rotate or shift of (XY+d) with a register copy (R444). -/
def rotIndXYR (i : IndexReg) (d : Byte) (s : Reg8) : RotOp → Instr
  | .rlc => .rlcIndXYR i d s
  | .rrc => .rrcIndXYR i d s
  | .rl => .rlIndXYR i d s
  | .rr => .rrIndXYR i d s
  | .sla => .slaIndXYR i d s
  | .sra => .sraIndXYR i d s
  | .sll => .sllIndXYR i d s
  | .srl => .srlIndXYR i d s

/-! ### The opcode maps -/

/-- Opcodes 00-3F of the main map; `n1` and `n2` are the two bytes after the opcode (R163). -/
def decodeQuarter0 (op n1 n2 : Byte) : Instr :=
  let p := fieldP op
  match (fieldZ op).toNat with
  | 0 =>
    match (fieldY op).toNat with
    | 0 => .nop
    | 1 => .exAFAF
    | 2 => .djnz n1
    | 3 => .jr n1
    | 4 => .jrCond .nz n1
    | 5 => .jrCond .z n1
    | 6 => .jrCond .nc n1
    | _ => .jrCond .c n1
  | 1 => if fieldQ op then .addHLPair (Pair.ofCode p) else .ldPairNN (Pair.ofCode p) (join n2 n1)
  | 2 =>
    match (fieldY op).toNat with
    | 0 => .ldIndBCA
    | 1 => .ldAIndBC
    | 2 => .ldIndDEA
    | 3 => .ldAIndDE
    | 4 => .ldMemHL (join n2 n1)
    | 5 => .ldHLMem (join n2 n1)
    | 6 => .ldMemA (join n2 n1)
    | _ => .ldAMem (join n2 n1)
  | 3 => if fieldQ op then .decPair (Pair.ofCode p) else .incPair (Pair.ofCode p)
  | 4 => (Reg8.ofCode (fieldY op)).elim .incIndHL .incR
  | 5 => (Reg8.ofCode (fieldY op)).elim .decIndHL .decR
  | 6 => (Reg8.ofCode (fieldY op)).elim (.ldIndHLN n1) (.ldRN · n1)
  | _ =>
    match (fieldY op).toNat with
    | 0 => .rlca
    | 1 => .rrca
    | 2 => .rla
    | 3 => .rra
    | 4 => .daa
    | 5 => .cpl
    | 6 => .scf
    | _ => .ccf

/-- Opcodes 40-7F of the main map (R163). -/
def decodeQuarter1 (op : Byte) : Instr :=
  match Reg8.ofCode (fieldY op), Reg8.ofCode (fieldZ op) with
  | some r, some s => .ldRR r s
  | some r, none => .ldRIndHL r
  | none, some s => .ldIndHLR s
  | none, none => .halt

/-- Opcodes 80-BF of the main map (R163). -/
def decodeQuarter2 (op : Byte) : Instr :=
  (Reg8.ofCode (fieldZ op)).elim (aluIndHL (AluOp.ofCode (fieldY op))) (aluR · (AluOp.ofCode (fieldY op)))

/-- Opcodes C0-FF of the main map; the four prefix bytes stand alone here (R163). -/
def decodeQuarter3 (op n1 n2 : Byte) : Instr :=
  let y := fieldY op
  match (fieldZ op).toNat with
  | 0 => .retCond (Cond.ofCode y)
  | 1 =>
    if fieldQ op then
      match (fieldP op).toNat with
      | 0 => .ret
      | 1 => .exx
      | 2 => .jpHL
      | _ => .ldSPHL
    else .popPair (StackPair.ofCode (fieldP op))
  | 2 => .jpCond (Cond.ofCode y) (join n2 n1)
  | 3 =>
    match y.toNat with
    | 0 => .jp (join n2 n1)
    | 1 => .prefixCB
    | 2 => .outNA n1
    | 3 => .inAN n1
    | 4 => .exSPHL
    | 5 => .exDEHL
    | 6 => .di
    | _ => .ei
  | 4 => .callCond (Cond.ofCode y) (join n2 n1)
  | 5 =>
    if fieldQ op then
      match (fieldP op).toNat with
      | 0 => .call (join n2 n1)
      | 1 => .prefixIndex .ix
      | 2 => .prefixED
      | _ => .prefixIndex .iy
    else .pushPair (StackPair.ofCode (fieldP op))
  | 6 => aluN n1 (AluOp.ofCode y)
  | _ => .rst y

/-- `MainTable(op, None)`: the main map of R163. -/
def decodeMain (op n1 n2 : Byte) : Instr :=
  match (fieldX op).toNat with
  | 0 => decodeQuarter0 op n1 n2
  | 1 => decodeQuarter1 op
  | 2 => decodeQuarter2 op
  | _ => decodeQuarter3 op n1 n2

/-- The main map under an index prefix, as far as the prefix changes it: classes 1 to 3 of R157 (R166). The bytes after
the opcode are `b1` and `b2`: d comes first and before n. It is `none` for a class 4 opcode. -/
def decodeIndexed (i : IndexReg) (op b1 b2 : Byte) : Option Instr :=
  let y := fieldY op
  let z := fieldZ op
  match (fieldX op).toNat with
  | 0 =>
    match z.toNat with
    | 1 =>
      if fieldQ op then some (.addXYPair i (IndexPair.ofCode (fieldP op)))
      else if y = 4 then some (.ldXYNN i (join b2 b1)) else none
    | 2 => if y = 4 then some (.ldMemXY i (join b2 b1)) else if y = 5 then some (.ldXYMem i (join b2 b1)) else none
    | 3 => if y = 4 then some (.incXY i) else if y = 5 then some (.decXY i) else none
    | 4 => if y = 6 then some (.incIndXY i b1) else (Half.ofCode y).map (.incHalf i)
    | 5 => if y = 6 then some (.decIndXY i b1) else (Half.ofCode y).map (.decHalf i)
    | 6 => if y = 6 then some (.ldIndXYN i b1 b2) else (Half.ofCode y).map (.ldHalfN i · b1)
    | _ => none
  | 1 =>
    match Reg8.ofCode y, Reg8.ofCode z with
    | none, none => none
    | some r, none => some (.ldRIndXY i r b1)
    | none, some s => some (.ldIndXYR i s b1)
    | some r, some s =>
      match Half.ofCode y, Half.ofCode z with
      | some h, _ => some (.ldHalfR i h s)
      | none, some h => some (.ldRHalf i r h)
      | none, none => none
  | 2 =>
    if z = 6 then some (aluIndXY i b1 (AluOp.ofCode y)) else (Half.ofCode z).map (aluHalf i · (AluOp.ofCode y))
  | _ =>
    if op = 0xE1 then some (.popXY i)
    else if op = 0xE3 then some (.exSPXY i)
    else if op = 0xE5 then some (.pushXY i)
    else if op = 0xE9 then some (.jpXY i)
    else if op = 0xF9 then some (.ldSPXY i)
    else none

/-- `CBTable(op2)`: the CB map of R164. -/
def decodeCB (op2 : Byte) : Instr :=
  let y := fieldY op2
  let r := Reg8.ofCode (fieldZ op2)
  match (fieldX op2).toNat with
  | 0 => r.elim (rotIndHL (RotOp.ofCode y)) (rotR · (RotOp.ofCode y))
  | 1 => r.elim (.bitIndHL y) (.bitR y)
  | 2 => r.elim (.resIndHL y) (.resR y)
  | _ => r.elim (.setIndHL y) (.setR y)

/-- `XYCBTable(prefix, d, op2)`: the xycb map of R167. -/
def decodeXYCB (i : IndexReg) (d op2 : Byte) : Instr :=
  let y := fieldY op2
  let r := Reg8.ofCode (fieldZ op2)
  match (fieldX op2).toNat with
  | 0 => r.elim (rotIndXY i d (RotOp.ofCode y)) (rotIndXYR i d · (RotOp.ofCode y))
  | 1 => r.elim (.bitIndXY i d y) (.bitIndXYDup i d y)
  | 2 => r.elim (.resIndXY i d y) (.resIndXYR i d y)
  | _ => r.elim (.setIndXY i d y) (.setIndXYR i d y)

/-- ED 40-7F (R165). -/
def decodeED1 (op2 lo hi : Byte) : Instr :=
  let y := fieldY op2
  let p := Pair.ofCode (fieldP op2)
  match (fieldZ op2).toNat with
  | 0 => (Reg8.ofCode y).elim .inFC .inRC
  | 1 => (Reg8.ofCode y).elim .outC0 .outCR
  | 2 => if fieldQ op2 then .adcHLPair p else .sbcHLPair p
  | 3 => if fieldQ op2 then .ldPairMem p (join hi lo) else .ldMemPair p (join hi lo)
  | 4 => if y = 0 then .neg else .negDup y
  | 5 => if y = 0 then .retn else if y = 1 then .reti else .retnDup y
  | 6 =>
    match y.toNat with
    | 0 => .im0
    | 2 => .im1
    | 3 => .im2
    | 6 => .im1Dup
    | 7 => .im2Dup
    | _ => .im0Dup y
  | _ =>
    match y.toNat with
    | 0 => .ldIA
    | 1 => .ldRA
    | 2 => .ldAI
    | 3 => .ldAR
    | 4 => .rrd
    | 5 => .rld
    | _ => .edHole op2

/-- ED 80-BF: the block instructions, and the holes among them (R165). -/
def decodeED2 (op2 : Byte) : Instr :=
  match (fieldY op2).toNat, (fieldZ op2).toNat with
  | 4, 0 => .ldi
  | 4, 1 => .cpi
  | 4, 2 => .ini
  | 4, 3 => .outi
  | 5, 0 => .ldd
  | 5, 1 => .cpd
  | 5, 2 => .ind
  | 5, 3 => .outd
  | 6, 0 => .ldir
  | 6, 1 => .cpir
  | 6, 2 => .inir
  | 6, 3 => .otir
  | 7, 0 => .lddr
  | 7, 1 => .cpdr
  | 7, 2 => .indr
  | 7, 3 => .otdr
  | _, _ => .edHole op2

/-- `EDTable(op2)`: the ED map of R165, whose other bytes are holes (R159); `lo` and `hi` are the two bytes after `op2`. -/
def decodeED (op2 lo hi : Byte) : Instr :=
  match (fieldX op2).toNat with
  | 1 => decodeED1 op2 lo hi
  | 2 => decodeED2 op2
  | _ => .edHole op2

/-- The name of an index prefix byte by the byte after it: each is the same sub-step of the dispatcher (R154), and the
opcode table has a row for each kind of byte that may follow. -/
def decodePrefix (i : IndexReg) (next : Byte) : Instr :=
  match IndexReg.ofByte next with
  | some j => .prefixRestart i j
  | none =>
    if next = 0xCB then .prefixCBAfterIndex i
    else if next = 0xED then .prefixEDAfterIndex i
    else if Machine.isClass4 next then .ignoredIndexPrefix i next
    else .prefixIndex i

/-- What the dispatcher reads at PC with `prefix` = `ctx`, from the four bytes there: an index prefix byte, which is a
sub-step of its own (R154), or else the opcode and the rest of its instruction (R155). -/
def decodeAt (ctx : Option IndexReg) (b0 b1 b2 b3 : Byte) : Instr :=
  match IndexReg.ofByte b0 with
  | some i => decodePrefix i b1
  | none =>
    if b0 = 0xCB then
      match ctx with
      | none => decodeCB b1
      | some i => decodeXYCB i b1 b2
    else if b0 = 0xED then decodeED b1 b2 b3
    else
      match ctx with
      | none => decodeMain b0 b1 b2
      | some i => (decodeIndexed i b0 b1 b2).getD (decodeMain b0 b1 b2)

/-! ### The encoder -/

/-- The opcode byte with fields x, y and z (R151). -/
def opByte (x : BitVec 2) (y z : BitVec 3) : Byte := x ++ y ++ z

/-- The opcode byte with fields x, p, q and z (R151). -/
def opPair (x p : BitVec 2) (q : BitVec 1) (z : BitVec 3) : Byte := x ++ p ++ q ++ z

/-- The words of an instruction, from the encoding column of spec/opcode_table.json. -/
def encode : Instr → List Byte
  | .ldRR r s => [opByte 1 r.code s.code]
  | .ldRN r n => [opByte 0 r.code 6, n]
  | .ldRIndHL r => [opByte 1 r.code 6]
  | .ldRIndXY i r d => [i.byte, opByte 1 r.code 6, d]
  | .ldIndHLR s => [opByte 1 6 s.code]
  | .ldIndXYR i s d => [i.byte, opByte 1 6 s.code, d]
  | .ldIndHLN n => [0x36, n]
  | .ldIndXYN i d n => [i.byte, 0x36, d, n]
  | .ldAIndBC => [0x0A]
  | .ldAIndDE => [0x1A]
  | .ldAMem nn => [0x3A, Machine.loByte nn, Machine.hiByte nn]
  | .ldIndBCA => [0x02]
  | .ldIndDEA => [0x12]
  | .ldMemA nn => [0x32, Machine.loByte nn, Machine.hiByte nn]
  | .ldAI => [0xED, 0x57]
  | .ldAR => [0xED, 0x5F]
  | .ldIA => [0xED, 0x47]
  | .ldRA => [0xED, 0x4F]
  | .ldRHalf i r h => [i.byte, opByte 1 r.code h.code]
  | .ldHalfR i h s => [i.byte, opByte 1 h.code s.code]
  | .ldHalfN i h n => [i.byte, opByte 0 h.code 6, n]
  | .ldPairNN p nn => [opPair 0 p.code 0 1, Machine.loByte nn, Machine.hiByte nn]
  | .ldXYNN i nn => [i.byte, 0x21, Machine.loByte nn, Machine.hiByte nn]
  | .ldHLMem nn => [0x2A, Machine.loByte nn, Machine.hiByte nn]
  | .ldPairMem p nn => [0xED, opPair 1 p.code 1 3, Machine.loByte nn, Machine.hiByte nn]
  | .ldXYMem i nn => [i.byte, 0x2A, Machine.loByte nn, Machine.hiByte nn]
  | .ldMemHL nn => [0x22, Machine.loByte nn, Machine.hiByte nn]
  | .ldMemPair p nn => [0xED, opPair 1 p.code 0 3, Machine.loByte nn, Machine.hiByte nn]
  | .ldMemXY i nn => [i.byte, 0x22, Machine.loByte nn, Machine.hiByte nn]
  | .ldSPHL => [0xF9]
  | .ldSPXY i => [i.byte, 0xF9]
  | .pushPair q => [opPair 3 q.code 0 5]
  | .pushXY i => [i.byte, 0xE5]
  | .popPair q => [opPair 3 q.code 0 1]
  | .popXY i => [i.byte, 0xE1]
  | .exDEHL => [0xEB]
  | .exAFAF => [0x08]
  | .exx => [0xD9]
  | .exSPHL => [0xE3]
  | .exSPXY i => [i.byte, 0xE3]
  | .ldi => [0xED, 0xA0]
  | .ldir => [0xED, 0xB0]
  | .ldd => [0xED, 0xA8]
  | .lddr => [0xED, 0xB8]
  | .cpi => [0xED, 0xA1]
  | .cpir => [0xED, 0xB1]
  | .cpd => [0xED, 0xA9]
  | .cpdr => [0xED, 0xB9]
  | .addR s => [opByte 2 0 s.code]
  | .addN n => [0xC6, n]
  | .addIndHL => [0x86]
  | .addIndXY i d => [i.byte, 0x86, d]
  | .addHalf i h => [i.byte, opByte 2 0 h.code]
  | .adcR s => [opByte 2 1 s.code]
  | .adcN n => [0xCE, n]
  | .adcIndHL => [0x8E]
  | .adcIndXY i d => [i.byte, 0x8E, d]
  | .adcHalf i h => [i.byte, opByte 2 1 h.code]
  | .subR s => [opByte 2 2 s.code]
  | .subN n => [0xD6, n]
  | .subIndHL => [0x96]
  | .subIndXY i d => [i.byte, 0x96, d]
  | .subHalf i h => [i.byte, opByte 2 2 h.code]
  | .sbcR s => [opByte 2 3 s.code]
  | .sbcN n => [0xDE, n]
  | .sbcIndHL => [0x9E]
  | .sbcIndXY i d => [i.byte, 0x9E, d]
  | .sbcHalf i h => [i.byte, opByte 2 3 h.code]
  | .andR s => [opByte 2 4 s.code]
  | .andN n => [0xE6, n]
  | .andIndHL => [0xA6]
  | .andIndXY i d => [i.byte, 0xA6, d]
  | .andHalf i h => [i.byte, opByte 2 4 h.code]
  | .xorR s => [opByte 2 5 s.code]
  | .xorN n => [0xEE, n]
  | .xorIndHL => [0xAE]
  | .xorIndXY i d => [i.byte, 0xAE, d]
  | .xorHalf i h => [i.byte, opByte 2 5 h.code]
  | .orR s => [opByte 2 6 s.code]
  | .orN n => [0xF6, n]
  | .orIndHL => [0xB6]
  | .orIndXY i d => [i.byte, 0xB6, d]
  | .orHalf i h => [i.byte, opByte 2 6 h.code]
  | .cpR s => [opByte 2 7 s.code]
  | .cpN n => [0xFE, n]
  | .cpIndHL => [0xBE]
  | .cpIndXY i d => [i.byte, 0xBE, d]
  | .cpHalf i h => [i.byte, opByte 2 7 h.code]
  | .incR r => [opByte 0 r.code 4]
  | .incIndHL => [0x34]
  | .incIndXY i d => [i.byte, 0x34, d]
  | .incHalf i h => [i.byte, opByte 0 h.code 4]
  | .decR r => [opByte 0 r.code 5]
  | .decIndHL => [0x35]
  | .decIndXY i d => [i.byte, 0x35, d]
  | .decHalf i h => [i.byte, opByte 0 h.code 5]
  | .daa => [0x27]
  | .cpl => [0x2F]
  | .neg => [0xED, 0x44]
  | .negDup y => [0xED, opByte 1 y 4]
  | .ccf => [0x3F]
  | .scf => [0x37]
  | .nop => [0x00]
  | .halt => [0x76]
  | .di => [0xF3]
  | .ei => [0xFB]
  | .im0 => [0xED, 0x46]
  | .im0Dup y => [0xED, opByte 1 y 6]
  | .im1 => [0xED, 0x56]
  | .im1Dup => [0xED, 0x76]
  | .im2 => [0xED, 0x5E]
  | .im2Dup => [0xED, 0x7E]
  | .edHole w => [0xED, w]
  | .addHLPair p => [opPair 0 p.code 1 1]
  | .adcHLPair p => [0xED, opPair 1 p.code 1 2]
  | .sbcHLPair p => [0xED, opPair 1 p.code 0 2]
  | .addXYPair i p => [i.byte, opPair 0 p.code 1 1]
  | .incPair p => [opPair 0 p.code 0 3]
  | .incXY i => [i.byte, 0x23]
  | .decPair p => [opPair 0 p.code 1 3]
  | .decXY i => [i.byte, 0x2B]
  | .rlca => [0x07]
  | .rla => [0x17]
  | .rrca => [0x0F]
  | .rra => [0x1F]
  | .rlcR s => [0xCB, opByte 0 0 s.code]
  | .rlcIndHL => [0xCB, 0x06]
  | .rlcIndXY i d => [i.byte, 0xCB, d, 0x06]
  | .rlcIndXYR i d s => [i.byte, 0xCB, d, opByte 0 0 s.code]
  | .rrcR s => [0xCB, opByte 0 1 s.code]
  | .rrcIndHL => [0xCB, 0x0E]
  | .rrcIndXY i d => [i.byte, 0xCB, d, 0x0E]
  | .rrcIndXYR i d s => [i.byte, 0xCB, d, opByte 0 1 s.code]
  | .rlR s => [0xCB, opByte 0 2 s.code]
  | .rlIndHL => [0xCB, 0x16]
  | .rlIndXY i d => [i.byte, 0xCB, d, 0x16]
  | .rlIndXYR i d s => [i.byte, 0xCB, d, opByte 0 2 s.code]
  | .rrR s => [0xCB, opByte 0 3 s.code]
  | .rrIndHL => [0xCB, 0x1E]
  | .rrIndXY i d => [i.byte, 0xCB, d, 0x1E]
  | .rrIndXYR i d s => [i.byte, 0xCB, d, opByte 0 3 s.code]
  | .slaR s => [0xCB, opByte 0 4 s.code]
  | .slaIndHL => [0xCB, 0x26]
  | .slaIndXY i d => [i.byte, 0xCB, d, 0x26]
  | .slaIndXYR i d s => [i.byte, 0xCB, d, opByte 0 4 s.code]
  | .sraR s => [0xCB, opByte 0 5 s.code]
  | .sraIndHL => [0xCB, 0x2E]
  | .sraIndXY i d => [i.byte, 0xCB, d, 0x2E]
  | .sraIndXYR i d s => [i.byte, 0xCB, d, opByte 0 5 s.code]
  | .sllR s => [0xCB, opByte 0 6 s.code]
  | .sllIndHL => [0xCB, 0x36]
  | .sllIndXY i d => [i.byte, 0xCB, d, 0x36]
  | .sllIndXYR i d s => [i.byte, 0xCB, d, opByte 0 6 s.code]
  | .srlR s => [0xCB, opByte 0 7 s.code]
  | .srlIndHL => [0xCB, 0x3E]
  | .srlIndXY i d => [i.byte, 0xCB, d, 0x3E]
  | .srlIndXYR i d s => [i.byte, 0xCB, d, opByte 0 7 s.code]
  | .rld => [0xED, 0x6F]
  | .rrd => [0xED, 0x67]
  | .bitR b s => [0xCB, opByte 1 b s.code]
  | .bitIndHL b => [0xCB, opByte 1 b 6]
  | .bitIndXY i d b => [i.byte, 0xCB, d, opByte 1 b 6]
  | .bitIndXYDup i d b s => [i.byte, 0xCB, d, opByte 1 b s.code]
  | .setR b s => [0xCB, opByte 3 b s.code]
  | .setIndHL b => [0xCB, opByte 3 b 6]
  | .setIndXY i d b => [i.byte, 0xCB, d, opByte 3 b 6]
  | .setIndXYR i d b s => [i.byte, 0xCB, d, opByte 3 b s.code]
  | .resR b s => [0xCB, opByte 2 b s.code]
  | .resIndHL b => [0xCB, opByte 2 b 6]
  | .resIndXY i d b => [i.byte, 0xCB, d, opByte 2 b 6]
  | .resIndXYR i d b s => [i.byte, 0xCB, d, opByte 2 b s.code]
  | .jp nn => [0xC3, Machine.loByte nn, Machine.hiByte nn]
  | .jpCond cc nn => [opByte 3 cc.code 2, Machine.loByte nn, Machine.hiByte nn]
  | .jr e => [0x18, e]
  | .jrCond cc e => [0x20 + (cc.code.setWidth 8 <<< 3), e]
  | .jpHL => [0xE9]
  | .jpXY i => [i.byte, 0xE9]
  | .djnz e => [0x10, e]
  | .call nn => [0xCD, Machine.loByte nn, Machine.hiByte nn]
  | .callCond cc nn => [opByte 3 cc.code 4, Machine.loByte nn, Machine.hiByte nn]
  | .ret => [0xC9]
  | .retCond cc => [opByte 3 cc.code 0]
  | .reti => [0xED, 0x4D]
  | .retn => [0xED, 0x45]
  | .retnDup y => [0xED, opByte 1 y 5]
  | .rst t => [opByte 3 t 7]
  | .inAN n => [0xDB, n]
  | .inRC r => [0xED, opByte 1 r.code 0]
  | .inFC => [0xED, 0x70]
  | .ini => [0xED, 0xA2]
  | .inir => [0xED, 0xB2]
  | .ind => [0xED, 0xAA]
  | .indr => [0xED, 0xBA]
  | .outNA n => [0xD3, n]
  | .outCR r => [0xED, opByte 1 r.code 1]
  | .outC0 => [0xED, 0x71]
  | .outi => [0xED, 0xA3]
  | .otir => [0xED, 0xB3]
  | .outd => [0xED, 0xAB]
  | .otdr => [0xED, 0xBB]
  | .prefixCB => [0xCB]
  | .prefixED => [0xED]
  | .prefixIndex i => [i.byte]
  | .prefixCBAfterIndex i => [i.byte, 0xCB]
  | .prefixEDAfterIndex i => [i.byte, 0xED]
  | .prefixRestart i j => [i.byte, j.byte]
  | .ignoredIndexPrefix i w => [i.byte, w]

/-! ### Whole instructions from a list of bytes -/

/-- Why a list of bytes holds no instruction. No four bytes are rejected (R156). -/
inductive DecodeReject where
  /-- The list is empty. -/
  | noBytes
  /-- The list ends inside the instruction its first bytes begin. -/
  | truncated
  deriving DecidableEq, Repr

/-- What decoding a list of bytes gives. -/
inductive Decoded where
  /-- The list begins with the instruction `i`, and `rest` follows it. -/
  | ok (i : Instr) (rest : List Byte)
  /-- The list holds no whole instruction. -/
  | rejected (why : DecodeReject)
  deriving DecidableEq, Repr

/-- The instruction that begins at the first byte of `bs` at an instruction boundary, missing bytes read as 0: an index
prefix and the instruction it changes are one instruction (R160); prefix bytes at the end of the list stand alone. -/
def decodeWhole (bs : List Byte) : Instr :=
  let b := fun k => bs.getD k 0
  match IndexReg.ofByte (b 0) with
  | none =>
    if bs.length = 1 ∧ b 0 = 0xCB then .prefixCB
    else if bs.length = 1 ∧ b 0 = 0xED then .prefixED
    else decodeAt none (b 0) (b 1) (b 2) (b 3)
  | some i =>
    if bs.length = 1 then .prefixIndex i
    else if bs.length = 2 ∧ b 1 = 0xCB then .prefixCBAfterIndex i
    else if b 1 = 0xCB then decodeXYCB i (b 2) (b 3)
    else (decodeIndexed i (b 1) (b 2) (b 3)).getD (decodePrefix i (b 1))

/-- The first instruction of a list of bytes and the bytes after it. -/
def decode (bs : List Byte) : Decoded :=
  let i := decodeWhole bs
  if bs = [] then .rejected .noBytes
  else if bs.length < (encode i).length then .rejected .truncated
  else .ok i (bs.drop (encode i).length)

/-! ### The length of an instruction (R161) -/

/-- The opcodes with a word operand: `imm(op)` is 2. -/
def wordOps : List Byte :=
  [0x01, 0x11, 0x21, 0x31, 0x22, 0x2A, 0x32, 0x3A, 0xC2, 0xC3, 0xC4, 0xCA, 0xCC, 0xCD, 0xD2, 0xD4, 0xDA, 0xDC, 0xE2,
   0xE4, 0xEA, 0xEC, 0xF2, 0xF4, 0xFA, 0xFC]

/-- The opcodes with a byte operand `n` or `e`: `imm(op)` is 1. -/
def byteOps : List Byte :=
  [0x06, 0x0E, 0x16, 0x1E, 0x26, 0x2E, 0x36, 0x3E, 0x10, 0x18, 0x20, 0x28, 0x30, 0x38, 0xC6, 0xCE, 0xD6, 0xDE, 0xE6,
   0xEE, 0xF6, 0xFE, 0xD3, 0xDB]

/-- `imm(op)`: how many immediate bytes a main-map opcode has. -/
def immLength (op : Byte) : Nat :=
  if wordOps.contains op then 2 else if byteOps.contains op then 1 else 0

/-- The length of an ED instruction from its op2, 0xED counted. -/
def edLength (op2 : Byte) : Nat :=
  if [(0x43 : Byte), 0x4B, 0x53, 0x5B, 0x63, 0x6B, 0x73, 0x7B].contains op2 then 4 else 2

/-- The length of the instruction a list of bytes begins with, every index prefix before the opcode counted, where
`prefixed` says whether one stands before the list. None where the bytes end before they tell the length. -/
def lengthAfter (prefixed : Bool) (bs : List Byte) : Option Nat :=
  match bs with
  | [] => none
  | op :: rest =>
    if op = 0xDD ∨ op = 0xFD then (lengthAfter true rest).map (· + 1)
    else if op = 0xCB then some (if prefixed then 3 else 2)
    else if op = 0xED then rest.head?.map edLength
    else some (1 + immLength op + if prefixed && Machine.class1Bytes.contains op then 1 else 0)

/-- `len(first bytes)`. -/
def instrLength (bs : List Byte) : Option Nat := lengthAfter false bs

/-- Whether an index prefix before the byte does nothing to what follows but its own cost: a class 4 opcode or 0xED
(R160), or another index prefix, which replaces it (R154). -/
def ignoresPrefix (op : Byte) : Bool := Machine.isClass4 op || op == 0xED || (IndexReg.ofByte op).isSome

/-- The ignored and replaced index prefixes at the head of a list of bytes, and the bytes from the next one on, where
the instruction with the prefix it uses begins. -/
def skipPrefixes (bs : List Byte) : List IndexReg × List Byte :=
  match bs with
  | [] => ([], [])
  | b :: rest =>
    match IndexReg.ofByte b with
    | none => ([], b :: rest)
    | some i =>
      if rest.head?.any ignoresPrefix then (i :: (skipPrefixes rest).1, (skipPrefixes rest).2) else ([], b :: rest)

/-- The whole instruction a list of bytes begins with, cut by its length: the ignored and replaced index prefixes, the
instruction they stand before, and the bytes after it. None where the list ends before the instruction does. -/
def decodeWithPrefixes (bs : List Byte) : Option (List IndexReg × Instr × List Byte) :=
  match instrLength bs with
  | none => none
  | some n =>
    if n ≤ bs.length then some ((skipPrefixes bs).1, decodeWhole (skipPrefixes bs).2, bs.drop n) else none

/-! ### Words of the opcode table -/

/-- The bytes of a word of spec/opcode_table.json. The table writes a row's bits with its FIRST byte most significant
(row `RLC r` has 0xCB in bits 15..8), so byte k of an n-byte word is bits 8(n-1-k)+7 .. 8(n-1-k) (log 6). -/
def tableBytes (nbits w : Nat) : List Byte :=
  let n := nbits / 8
  (List.range n).map fun k => BitVec.ofNat 8 (w >>> (8 * (n - 1 - k)))

/-- The instruction the decoder reads from a word numbered as spec/opcode_table.json numbers it; bytes beyond `nbits`
are 0. -/
def decodeTableWord (nbits w : Nat) : Option Instr :=
  let bs := tableBytes nbits w
  match decode bs with
  | .ok i _ => some i
  | .rejected .noBytes => none
  | .rejected .truncated => some (decodeWhole (bs ++ [0, 0, 0]))

end Sys2Proof
end

