-- ==== Sys2Proof/Config.lean ====
section
/-! DEFINITION. What is fixed for a run (the parameters of R17) and the free values (R24). The parameters the spec
leaves OPEN are a record that `State` carries and no step changes, so that a statement about every state holds for
every value of them; the free values are opaque constants, so that no proof can see them. -/

namespace Sys2Proof.Config

/-- The parameters of R17 that the spec leaves to the model's user. Each is fixed for the whole run.
`bankWritable` is `P_BANK_WRITABLE`, `tstatesPerTick` is `P_TSTATES_PER_TICK` (a positive integer),
`trapLoad`, `trapSave` and `trapEnabled` are `P_TRAP_LOAD`, `P_TRAP_SAVE` and `P_TRAP_ENABLED`. -/
structure Params where
  bankWritable : Vector Bool 8
  tstatesPerTick : Nat
  trapLoad : Word
  trapSave : Word
  trapEnabled : Bool
  deriving DecidableEq, Repr

/-- The parameters `State.reset` carries. `bankWritable` and `trapEnabled` are R17's defaults. The budget and the two
trap addresses are OPEN in the spec. DESIGN CHOICE (unsafe, log 3): the budget is the largest value of the counter, so
that no suspension happens, and the trap addresses are the last two addresses of ROM. -/
def defaultParams : Params where
  bankWritable := #v[false, true, true, true, true, true, true, true]
  tstatesPerTick := 4294967295
  trapLoad := 0x1FFE
  trapSave := 0x1FFF
  trapEnabled := true

/-- `P_INT_ACK_T`, the T-states charged for accepting an interrupt (R17, R610). -/
def intAckT : Count := 13

/-- A draw: the unspecified bits an instruction leaves in F are bits of `freeByte k`, with `k` the state's draw counter,
which every drawing instruction advances (R24, R64). Free value: nothing constrains it (log 1). -/
opaque freeByte : Nat → Byte

/-- `KeyRow(i)` at one port read: any byte, supplied by the keyboard, with `k` the state's draw counter (R121, R123).
Free value: nothing constrains it (log 2). -/
opaque keyRow : Nat → BitVec 3 → Byte

end Sys2Proof.Config
end

