-- ==== Sys2Proof/Machine/State.lean ====
section
/-! DEFINITION. The state of the block (R39), the ways a step can stop, and the state after reset (R702, R703). -/

namespace Sys2Proof.Machine

/-- F as its eight bits, from bit 7 down to bit 0: S, Z, Y, H, X, P/V, N, C (R62). -/
structure Flags where
  s : Bool
  z : Bool
  y : Bool
  h : Bool
  x : Bool
  pv : Bool
  n : Bool
  c : Bool
  deriving DecidableEq, Repr

/-- One register set: the primary set of R40 or the shadow set of R41. -/
structure RegSet where
  a : Byte
  f : Flags
  b : Byte
  c : Byte
  d : Byte
  e : Byte
  h : Byte
  l : Byte
  deriving DecidableEq, Repr

/-- The tri-state interrupt and reset request (R72). -/
inductive Request where
  | idle | pendingInterrupt | pendingReset
  deriving DecidableEq, Repr

/-- The speed mode (R73). -/
inductive Speed where
  | normal | unthrottled
  deriving DecidableEq, Repr

/-- Which tape routine a trap waits for (R640). -/
inductive TrapKind where
  | load | save
  deriving DecidableEq, Repr

/-- Whether the core can step (R74). -/
inductive RunState where
  | running
  | suspended
  | trapWait (k : TrapKind)
  deriving DecidableEq, Repr

/-- Memory as the list of the bytes that differ from 0x00, by strictly rising address; an address that is not listed
reads as 0x00. DESIGN CHOICE (unsafe, log 4): the spec leaves `P_ROM` and `P_INIT_RAM` open. -/
abbrev Memory := List Host.Cell

/-- What the tape collaborator's routine does in its one host action: a finite sequence of `MemWrite(a, 1, v)` stores,
then any values for the register sets, IX, IY and SP, and the return address (R641). -/
structure TapeResult where
  stores : List (Word × Byte)
  main : RegSet
  alt : RegSet
  ix : Word
  iy : Word
  sp : Word
  pc : Word
  deriving DecidableEq, Repr

/-- The host actions that touch the core between its transitions (R620, R621, R622, R641). -/
inductive HostEvent where
  /-- The timer tick (R620). -/
  | tick
  /-- The reset controller sets PendingReset (R621). -/
  | resetRequest
  /-- The speed switch (R622). -/
  | setSpeed (v : Speed)
  /-- The tape routine ends a trap wait (R641). -/
  | tapeReturn (t : TapeResult)
  deriving DecidableEq, Repr

/-- The state of the block. The fields up to `pfx` are the record of R39; `pfx` is its `prefix`. The last three are
the model's own: `params` holds the parameters of R17 (log 3), `inbox` the host actions still to come, one list for
each coming step (log 5), and `draws` counts the free values used so far (log 1). -/
structure State where
  main : RegSet
  alt : RegSet
  ix : Word
  iy : Word
  sp : Word
  pc : Word
  i : Byte
  r : Byte
  iff1 : Bool
  iff2 : Bool
  im : BitVec 2
  tstates : Count
  mem : Memory
  halted : Bool
  request : Request
  speed : Speed
  run : RunState
  pfx : Option IndexReg
  params : Config.Params
  inbox : List (List HostEvent)
  draws : Nat
  deriving DecidableEq, Repr

/-- The faults of a step. There are none: the core raises no exception and has no fault state (R25, R600), so no step
of the model can answer a fault. -/
inductive Fault where
  deriving DecidableEq, Repr

/-- The refusals of a step. -/
inductive Refusal where
  /-- Raised by an arm of `exec` for an instruction that has no meaning yet. No arm raises it. Safe. -/
  | notModelled (mnemonic : String)
  deriving DecidableEq, Repr

/-- The outcome of a step of this machine. -/
abbrev Out := Host.Outcome State Fault Refusal

/-- F = 0x00 (R703). -/
def Flags.zero : Flags where
  s := false
  z := false
  y := false
  h := false
  x := false
  pv := false
  n := false
  c := false

/-- A register set whose eight registers are 0x00 (R703). -/
def RegSet.zero : RegSet where
  a := 0
  f := Flags.zero
  b := 0
  c := 0
  d := 0
  e := 0
  h := 0
  l := 0

/-- The power-on state: every field at the value of R703's last column. Memory lists nothing (log 4), the parameters
are `Config.defaultParams` (log 3), and the model's own fields start empty (logs 1 and 5). -/
def State.reset : State where
  main := RegSet.zero
  alt := RegSet.zero
  ix := 0
  iy := 0
  sp := 0
  pc := 0
  i := 0
  r := 0
  iff1 := false
  iff2 := false
  im := 0
  tstates := 0
  mem := []
  halted := false
  request := .idle
  speed := .normal
  run := .running
  pfx := none
  params := Config.defaultParams
  inbox := []
  draws := 0

end Sys2Proof.Machine
end

