-- ==== Sys2Proof/Machine/Flags.lean ====
section
/-! DEFINITION. The flags: F as a byte, the conditions, and every flag computation of the spec. `free` is the byte of
free bits an instruction draws; its bits 5 and 3 become F[5] and F[3] (R64). -/

namespace Sys2Proof.Machine

/-- F as a byte: S is bit 7, Z bit 6, Y bit 5, H bit 4, X bit 3, P/V bit 2, N bit 1, C bit 0 (R62). -/
def Flags.toByte (f : Flags) : Byte :=
  BitVec.ofBool f.s ++ BitVec.ofBool f.z ++ BitVec.ofBool f.y ++ BitVec.ofBool f.h ++
    BitVec.ofBool f.x ++ BitVec.ofBool f.pv ++ BitVec.ofBool f.n ++ BitVec.ofBool f.c

/-- The flags a byte holds when it is moved into F whole (R62, R253). -/
def Flags.ofByte (v : Byte) : Flags where
  s := v.getLsbD 7
  z := v.getLsbD 6
  y := v.getLsbD 5
  h := v.getLsbD 4
  x := v.getLsbD 3
  pv := v.getLsbD 2
  n := v.getLsbD 1
  c := v.getLsbD 0

/-- `cond[c]` on the flags (R66). -/
def Flags.holds (f : Flags) : Cond → Bool
  | .nz => !f.z
  | .z => f.z
  | .nc => !f.c
  | .c => f.c
  | .po => !f.pv
  | .pe => f.pv
  | .p => !f.s
  | .m => f.s

/-- `XY <- Draw()` (R26, R64). -/
def Flags.drawXY (f : Flags) (free : Byte) : Flags :=
  { f with y := free.getLsbD 5, x := free.getLsbD 3 }

/-- `SZ(v)` (R26). -/
def Flags.setSZ (f : Flags) (v : Byte) : Flags :=
  { f with s := v.getLsbD 7, z := v == 0 }

/-- `SZP(v)` (R26). -/
def Flags.setSZP (f : Flags) (v : Byte) : Flags :=
  { f.setSZ v with pv := parity v }

/-- `Add8(a, b, c)`: the result and F (R321). -/
def add8 (a b : Byte) (c : Bool) (free : Byte) : Byte × Flags :=
  let t := a.toNat + b.toNat + bit c
  let res := BitVec.ofNat 8 t
  (res,
    { s := res.getLsbD 7
      z := res == 0
      y := free.getLsbD 5
      h := a.toNat % 16 + b.toNat % 16 + bit c > 15
      x := free.getLsbD 3
      pv := a.getLsbD 7 == b.getLsbD 7 && res.getLsbD 7 != a.getLsbD 7
      n := false
      c := t > 255 })

/-- `Sub8(a, b, c)`: the result and F (R322). -/
def sub8 (a b : Byte) (c : Bool) (free : Byte) : Byte × Flags :=
  let t : Int := (a.toNat : Int) - (b.toNat : Int) - (bit c : Int)
  let res := BitVec.ofInt 8 t
  (res,
    { s := res.getLsbD 7
      z := res == 0
      y := free.getLsbD 5
      h := ((a.toNat % 16 : Nat) : Int) - ((b.toNat % 16 : Nat) : Int) - (bit c : Int) < 0
      x := free.getLsbD 3
      pv := a.getLsbD 7 != b.getLsbD 7 && res.getLsbD 7 != a.getLsbD 7
      n := true
      c := t < 0 })

/-- The flags of AND, XOR and OR from the result; H is 1 for AND only (R327, R328, R329). -/
def logicFlags (res : Byte) (h : Bool) (free : Byte) : Flags where
  s := res.getLsbD 7
  z := res == 0
  y := free.getLsbD 5
  h := h
  x := free.getLsbD 3
  pv := parity res
  n := false
  c := false

/-- The result and F of an ALU operation on A = `a` and the operand `v`, with carry-in `c`; for CP the result is what
stays in A (R323 to R330). -/
def alu8 (op : AluOp) (a v : Byte) (c : Bool) (free : Byte) : Byte × Flags :=
  match op with
  | .add => add8 a v false free
  | .adc => add8 a v c free
  | .sub => sub8 a v false free
  | .sbc => sub8 a v c free
  | .and => (a &&& v, logicFlags (a &&& v) true free)
  | .xor => (a ^^^ v, logicFlags (a ^^^ v) false free)
  | .or => (a ||| v, logicFlags (a ||| v) false free)
  | .cp => (a, (sub8 a v false free).2)

/-- The flags of an 8-bit INC of `v` (R331). -/
def incFlags (f : Flags) (v free : Byte) : Flags :=
  { (f.setSZ (v + 1)).drawXY free with h := v.toNat % 16 == 15, pv := v == 0x7F, n := false }

/-- The flags of an 8-bit DEC of `v` (R334). -/
def decFlags (f : Flags) (v free : Byte) : Flags :=
  { (f.setSZ (v - 1)).drawXY free with h := v.toNat % 16 == 0, pv := v == 0x80, n := true }

/-- DAA: the new A and F (R360). -/
def daa8 (a : Byte) (f : Flags) (free : Byte) : Byte × Flags :=
  let low := f.h || a.toNat % 16 > 9
  let high := f.c || a.toNat > 0x99
  let corr : Byte := (if low then 0x06 else 0) ||| (if high then 0x60 else 0)
  let res := if f.n then a - corr else a + corr
  let h := if f.n then f.h && decide (a.toNat % 16 < 6) else decide (a.toNat % 16 > 9)
  (res, { (f.setSZP res).drawXY free with h := h, c := high })

/-- ADD HL,ss and ADD XY,pp: the result and F (R400, R403). -/
def add16 (a b : Word) (f : Flags) (free : Byte) : Word × Flags :=
  let t := a.toNat + b.toNat
  (BitVec.ofNat 16 t,
    { f.drawXY free with h := a.toNat % 4096 + b.toNat % 4096 > 4095, n := false, c := t > 65535 })

/-- ADC HL,ss: the result and F (R401). -/
def adc16 (a b : Word) (c : Bool) (free : Byte) : Word × Flags :=
  let t := a.toNat + b.toNat + bit c
  let res := BitVec.ofNat 16 t
  (res,
    { s := res.getLsbD 15
      z := res == 0
      y := free.getLsbD 5
      h := a.toNat % 4096 + b.toNat % 4096 + bit c > 4095
      x := free.getLsbD 3
      pv := a.getLsbD 15 == b.getLsbD 15 && res.getLsbD 15 != a.getLsbD 15
      n := false
      c := t > 65535 })

/-- SBC HL,ss: the result and F (R402). -/
def sbc16 (a b : Word) (c : Bool) (free : Byte) : Word × Flags :=
  let t : Int := (a.toNat : Int) - (b.toNat : Int) - (bit c : Int)
  let res := BitVec.ofInt 16 t
  (res,
    { s := res.getLsbD 15
      z := res == 0
      y := free.getLsbD 5
      h := ((a.toNat % 4096 : Nat) : Int) - ((b.toNat % 4096 : Nat) : Int) - (bit c : Int) < 0
      x := free.getLsbD 3
      pv := a.getLsbD 15 != b.getLsbD 15 && res.getLsbD 15 != a.getLsbD 15
      n := true
      c := t < 0 })

/-- The result and the carry out of a rotate or shift of `v` with carry-in `c` (R445 to R452). -/
def rotate8 (op : RotOp) (v : Byte) (c : Bool) : Byte × Bool :=
  match op with
  | .rlc => ((v <<< 1) ||| BitVec.ofNat 8 (bit (v.getLsbD 7)), v.getLsbD 7)
  | .rrc => ((v >>> 1) ||| (BitVec.ofNat 8 (bit (v.getLsbD 0)) <<< 7), v.getLsbD 0)
  | .rl => ((v <<< 1) ||| BitVec.ofNat 8 (bit c), v.getLsbD 7)
  | .rr => ((v >>> 1) ||| (BitVec.ofNat 8 (bit c) <<< 7), v.getLsbD 0)
  | .sla => (v <<< 1, v.getLsbD 7)
  | .sra => ((v >>> 1) ||| (v &&& 0x80), v.getLsbD 0)
  | .sll => ((v <<< 1) ||| 1, v.getLsbD 7)
  | .srl => (v >>> 1, v.getLsbD 0)

/-- The flags of a CB rotate or shift from its result and carry (47_rotate_shift_bit.md section 3). -/
def rotFlags (f : Flags) (res : Byte) (c : Bool) (free : Byte) : Flags :=
  { (f.setSZP res).drawXY free with h := false, n := false, c := c }

/-- The flags of RLCA, RLA, RRCA and RRA: S, Z and P/V are kept (R440 to R443). -/
def rotAFlags (f : Flags) (c : Bool) (free : Byte) : Flags :=
  { f.drawXY free with h := false, n := false, c := c }

/-- The flags set by a byte that was read or formed: S, Z, parity, H = 0, N = 0, C kept (R453, R454, R562). -/
def inFlags (f : Flags) (v free : Byte) : Flags :=
  { (f.setSZP v).drawXY free with h := false, n := false }

/-- The flags of BIT b of `v`: S and P/V are free (R455). -/
def bitFlags (f : Flags) (b : BitVec 3) (v free : Byte) : Flags :=
  { f.drawXY free with s := free.getLsbD 7, z := !v.getLsbD b.toNat, h := true, pv := free.getLsbD 2, n := false }

/-- The flags of LDI and LDD from BC after its decrement (R286). -/
def moveFlags (f : Flags) (bc : Word) (free : Byte) : Flags :=
  { f.drawXY free with h := false, pv := bc != 0, n := false }

/-- The flags of CPI and CPD from A, the byte read and BC after its decrement (R290). -/
def searchFlags (f : Flags) (a v : Byte) (bc : Word) (free : Byte) : Flags :=
  { (f.setSZ (a - v)).drawXY free with h := a.toNat % 16 < v.toNat % 16, pv := bc != 0, n := true }

/-- The flags of the block input and output instructions from B after its decrement: S, H, P/V and C are free
(R564, R571). -/
def blockIoFlags (b free : Byte) : Flags where
  s := free.getLsbD 7
  z := b == 0
  y := free.getLsbD 5
  h := free.getLsbD 4
  x := free.getLsbD 3
  pv := free.getLsbD 2
  n := true
  c := free.getLsbD 0

end Sys2Proof.Machine
end

