-- ==== Sys2Proof/Machine/Ops.lean ====
section
/-! DEFINITION. The named operations on the state: memory with its banks and mirrors, ports, the fetch accounting, the
stack, interrupt acceptance and the return from it, reset, and the boundary and host actions around an instruction. -/

namespace Sys2Proof.Machine

/-! ### Memory (20_memory.md) -/

/-- What an address that is not listed reads as (log 4). -/
def unlistedByte : Byte := 0

/-- The byte at address `a` (R104). -/
def Memory.get (m : Memory) (a : Nat) : Byte :=
  match m with
  | [] => unlistedByte
  | (k, v) :: rest => if k = a then v else Memory.get rest a

/-- Puts a listed byte into the list, in address order. -/
def Memory.insert (m : Memory) (a : Nat) (v : Byte) : Memory :=
  match m with
  | [] => [(a, v)]
  | (k, w) :: rest =>
    if a < k then (a, v) :: (k, w) :: rest
    else if a = k then (a, v) :: rest
    else (k, w) :: Memory.insert rest a v

/-- Takes an address out of the list. -/
def Memory.erase (m : Memory) (a : Nat) : Memory := m.filter fun p => p.1 != a

/-- Writes one byte of the array, keeping the canonical form: writing what an unlisted address reads as removes the
entry. -/
def Memory.set (m : Memory) (a : Nat) (v : Byte) : Memory :=
  if v = unlistedByte then Memory.erase m a else Memory.insert m a v

/-- The canonical form: strictly rising addresses inside the address space, and no entry that an unlisted address
would read as. -/
abbrev Memory.wf (m : Memory) : Prop :=
  m.Pairwise (fun p q => p.1 < q.1) ∧ ∀ p ∈ m, p.1 < 65536 ∧ p.2 ≠ unlistedByte

/-- The other addresses of the quad-mirrored block that hold the same byte as offset `k` (R107). -/
def quadMirrors (k : Word) : List Word := [0x3000 + k, 0x3400 + k, 0x3800 + k, 0x3C00 + k]

/-- `Mirrors(a)` (R107). -/
def mirrors (a : Word) : List Word :=
  let n := a.toNat
  if (0x2000 ≤ n ∧ n ≤ 0x23FF) ∨ (0x2800 ≤ n ∧ n ≤ 0x2BFF) then [a + 0x400]
  else if (0x2400 ≤ n ∧ n ≤ 0x27FF) ∨ (0x2C00 ≤ n ∧ n ≤ 0x2FFF) then [a - 0x400]
  else if 0x3000 ≤ n ∧ n ≤ 0x3FFF then (quadMirrors (a &&& 0x3FF)).filter (· ≠ a)
  else []

/-- The write attribute of the bank of `a`: bank(a) = a >> 13 (R100, R101). -/
def State.writable (s : State) (a : Word) : Bool :=
  s.params.bankWritable.get (a.extractLsb' 13 3).toFin

/-- `MemRead(a, 1)` (R104). -/
def State.readByte (s : State) (a : Word) : Byte := Memory.get s.mem a.toNat

/-- Writes every address of a list with one byte. -/
def Memory.setAll (m : Memory) (as : List Word) (v : Byte) : Memory :=
  as.foldl (fun m a => Memory.set m a.toNat v) m

/-- The byte of an initial image: every alias of `a` gets it, whatever the write attribute (R102, R112). -/
def State.pokeByte (s : State) (a : Word) (v : Byte) : State :=
  { s with mem := Memory.setAll s.mem (a :: mirrors a) v }

/-- `MemWrite(a, 1, v)`: a no-op in a read-only bank, else `a` and all of `Mirrors(a)` at once (R106, R110). -/
def State.writeByte (s : State) (a : Word) (v : Byte) : State :=
  if s.writable a then { s with mem := Memory.setAll s.mem (a :: mirrors a) v } else s

/-- `MemRead(a, 2)`: low byte at `a`, high byte at `w16(a + 1)` (R105). -/
def State.readWord (s : State) (a : Word) : Word := join (s.readByte (a + 1)) (s.readByte a)

/-- `MemWrite(a, 2, v)`: two byte stores, the low byte at `a` (R109). -/
def State.writeWord (s : State) (a v : Word) : State :=
  (s.writeByte a (loByte v)).writeByte (a + 1) (hiByte v)

/-! ### The fetch accounting (30_encoding.md) -/

/-- `FetchOpcode()` of an index prefix byte in the dispatcher's loop, with its T-states (R152, R153). -/
def State.takePrefix (i : IndexReg) (s : State) : State :=
  { s with pc := s.pc + 1, r := s.r + 1, tstates := s.tstates + 4, pfx := some i }

/-- The instruction's own index prefix: taken now, unless the dispatcher took it in an earlier sub-step (R154). -/
def State.ownPrefix (i : IndexReg) (s : State) : State :=
  if s.pfx = some i then s else s.takePrefix i

/-- The fetches of an instruction, its index prefix apart: PC passes its `len` bytes, R counts its `m1` opcode bytes,
the counter gains `t`, and `prefix` becomes None (R46, R152, R153, R720). -/
def State.fetched (s : State) (len : Word) (m1 : Byte) (t : Count) : State :=
  { s with pc := s.pc + len, r := s.r + m1, tstates := s.tstates + t, pfx := none }

/-! ### Free values -/

/-- The byte of free bits this instruction draws (R24). -/
def State.freeByte (s : State) : Byte := Config.freeByte s.draws

/-- The draw is used up: the next one is a fresh value (R24). -/
def State.drawn (s : State) : State := { s with draws := s.draws + 1 }

/-- Writes F after drawing for its free bits. -/
def State.setFlags (s : State) (f : Flags) : State := { s.drawn with main := { s.main with f := f } }

/-! ### Ports -/

/-- KEYMASK: the row a high byte selects is its position in the list (R122). -/
def keyRowIndex (hi : Byte) : Option (BitVec 3) :=
  if hi = 0xFE then some 0
  else if hi = 0xFD then some 1
  else if hi = 0xFB then some 2
  else if hi = 0xF7 then some 3
  else if hi = 0xEF then some 4
  else if hi = 0xDF then some 5
  else if hi = 0xBF then some 6
  else if hi = 0x7F then some 7
  else none

/-- `PortRead(hi, lo)`: a keyboard row, which is a draw, or open bus (R120, R121). -/
def State.portRead (s : State) (hi lo : Byte) : Byte :=
  if lo = 0xFE then
    match keyRowIndex hi with
    | some i => Config.keyRow s.draws i
    | none => 0xFF
  else 0xFF

/-- `PortWrite(hi, lo, v)`: accepted, with no effect (R124). -/
def State.portWrite (s : State) (_hi _lo _v : Byte) : State := s

/-! ### The stack -/

/-- `Push16(v)` (R250). -/
def State.push16 (s : State) (v : Word) : State :=
  { s with sp := s.sp - 2 }.writeWord (s.sp - 2) v

/-- The value `Pop16()` returns (R250). -/
def State.popValue (s : State) : Word := s.readWord s.sp

/-- SP after `Pop16()` (R250). -/
def State.popped (s : State) : State := { s with sp := s.sp + 2 }

/-! ### Interrupt acceptance, return and reset -/

/-- The fixed interrupt vector (R612). -/
def interruptVector : Word := 0x0038

/-- `AcceptInterrupt()` (R610). -/
def State.acceptInterrupt (s : State) : State :=
  { s.push16 s.pc with
    halted := false
    pc := interruptVector
    iff1 := false
    iff2 := false
    r := s.r + 1
    tstates := s.tstates + Config.intAckT }

/-- The return from an interrupt: PC is popped and IFF1 is restored from IFF2 (R530, R531, R613). -/
def State.returnFromInterrupt (s : State) : State :=
  { s.popped with pc := s.popValue, iff1 := s.iff2 }

/-- `Reset()`: every register field is zeroed; memory, `speed` and the parameters stay (R700). -/
def State.resetCore (s : State) : State :=
  { s with
    main := RegSet.zero
    alt := RegSet.zero
    ix := 0
    iy := 0
    sp := 0
    pc := 0
    i := 0
    r := 0
    iff1 := false
    iff2 := false
    im := 0
    tstates := 0
    halted := false
    pfx := none }

/-! ### The boundary actions -/

/-- `SampleRequest()`: one read-and-clear of the request, then its action (R603 to R606). -/
def State.sampleRequest (s : State) : State :=
  let t := { s with request := .idle }
  match s.request with
  | .pendingReset => t.resetCore
  | .pendingInterrupt => if s.iff1 then t.acceptInterrupt else t
  | .idle => t

/-- `ThrottleCheck()` (R651). -/
def State.throttleCheck (s : State) : State :=
  if s.speed = .normal ∧ s.tstates.toNat > s.params.tstatesPerTick then { s with run := .suspended } else s

/-- `Boundary()` (R602). -/
def State.boundary (s : State) : State := s.sampleRequest.throttleCheck

/-- `IdleStep()`, the halted idle cycle with its boundary (R706). -/
def State.idleCycle (s : State) : State :=
  { s with r := s.r + 1, tstates := s.tstates + 4 }.boundary

/-- After an instruction effect: the boundary actions, but none between an index prefix and its opcode (R153, R154). -/
def State.finish (s : State) : State := if s.pfx.isSome then s else s.boundary

/-! ### Tape traps -/

/-- `TrapCheck()`: the trap the PC matches, if any; LOAD is tested first (R640). -/
def State.trapAt (s : State) : Option TrapKind :=
  if s.params.trapEnabled then
    if s.pc = s.params.trapLoad then some .load
    else if s.pc = s.params.trapSave then some .save
    else none
  else none

/-- A taken trap: nothing is fetched and no boundary action runs (R640). -/
def State.enterTrap (s : State) (k : TrapKind) : State := { s with run := .trapWait k }

/-! ### Host actions -/

/-- `Tick()` (R620, R650). -/
def State.tick (s : State) : State :=
  let t := if s.request = .idle then { s with request := .pendingInterrupt } else s
  if t.run = .suspended then { t with tstates := 0, run := .running } else t

/-- The tape routine's one host action, which only a trap wait admits (R641). -/
def State.tapeReturn (s : State) (x : TapeResult) : State :=
  match s.run with
  | .trapWait _ =>
    { x.stores.foldl (fun t p => t.writeByte p.1 p.2) s with
      main := x.main
      alt := x.alt
      ix := x.ix
      iy := x.iy
      sp := x.sp
      pc := x.pc
      run := .running }
  | _ => s

/-- One host action (R620, R621, R622, R641). -/
def State.hostAction (s : State) : HostEvent → State
  | .tick => s.tick
  | .resetRequest => { s with request := .pendingReset }
  | .setSpeed v => { s with speed := v }
  | .tapeReturn x => s.tapeReturn x

/-- The host actions that arrive before this transition of the core: the first list of `inbox` (log 5). -/
def State.takeInbox (s : State) : State :=
  match s.inbox with
  | [] => s
  | es :: rest => es.foldl State.hostAction { s with inbox := rest }

/-! ### What the core does next -/

/-- The four things a transition of the core can be (R74, R153, R640, R706). -/
inductive Activity where
  /-- The core takes no step: it is suspended or waits for the tape routine. -/
  | wait
  /-- A halted idle cycle. -/
  | idle
  /-- A tape trap is taken. -/
  | trap (k : TrapKind)
  /-- A dispatch step, or the next sub-step of one, fetches and executes. -/
  | execute
  deriving DecidableEq, Repr

/-- What the core does next: the trap check is the first action of a dispatch step, so it is not made between an index
prefix and its opcode, nor while halted (R153, R640, R706). -/
def State.activity (s : State) : Activity :=
  if s.run ≠ .running then .wait
  else if s.halted then .idle
  else
    match s.pfx, s.trapAt with
    | none, some k => .trap k
    | _, _ => .execute

end Sys2Proof.Machine
end

