-- ==== Sys2Proof/Machine/Operands.lean ====
section
/-! DEFINITION. The operand forms: registers, pairs, index registers and their halves, effective addresses, and the
shared effects that the instruction families apply to them. -/

namespace Sys2Proof.Machine

/-! ### Registers, pairs and index registers (10_state.md) -/

/-- Reads a plain register (R50). -/
def RegSet.get (g : RegSet) : Reg8 → Byte
  | .b => g.b
  | .c => g.c
  | .d => g.d
  | .e => g.e
  | .h => g.h
  | .l => g.l
  | .a => g.a

/-- Writes a plain register (R50). -/
def RegSet.set (g : RegSet) (r : Reg8) (v : Byte) : RegSet :=
  match r with
  | .b => { g with b := v }
  | .c => { g with c := v }
  | .d => { g with d := v }
  | .e => { g with e := v }
  | .h => { g with h := v }
  | .l => { g with l := v }
  | .a => { g with a := v }

/-- The pair BC: B is the high byte (R44). -/
def RegSet.bc (g : RegSet) : Word := join g.b g.c

/-- The pair DE (R44). -/
def RegSet.de (g : RegSet) : Word := join g.d g.e

/-- The pair HL (R44). -/
def RegSet.hl (g : RegSet) : Word := join g.h g.l

/-- Writes BC (R44). -/
def RegSet.setBC (g : RegSet) (v : Word) : RegSet := { g with b := hiByte v, c := loByte v }

/-- Writes DE (R44). -/
def RegSet.setDE (g : RegSet) (v : Word) : RegSet := { g with d := hiByte v, e := loByte v }

/-- Writes HL (R44). -/
def RegSet.setHL (g : RegSet) (v : Word) : RegSet := { g with h := hiByte v, l := loByte v }

/-- Reads `x[k]`, a plain register of the primary set (R50). -/
def State.reg (s : State) (r : Reg8) : Byte := s.main.get r

/-- Writes a plain register of the primary set (R50). -/
def State.setReg (s : State) (r : Reg8) (v : Byte) : State := { s with main := s.main.set r v }

/-- Reads `rp[p]` (R51). -/
def State.pair (s : State) : Pair → Word
  | .bc => s.main.bc
  | .de => s.main.de
  | .hl => s.main.hl
  | .sp => s.sp

/-- Writes `rp[p]` (R51). -/
def State.setPair (s : State) (p : Pair) (v : Word) : State :=
  match p with
  | .bc => { s with main := s.main.setBC v }
  | .de => { s with main := s.main.setDE v }
  | .hl => { s with main := s.main.setHL v }
  | .sp => { s with sp := v }

/-- Reads `rp2[q]` (R52). -/
def State.stackPair (s : State) : StackPair → Word
  | .bc => s.main.bc
  | .de => s.main.de
  | .hl => s.main.hl
  | .af => join s.main.a s.main.f.toByte

/-- Writes `rp2[q]`; AF takes all eight bits of F (R52, R253). -/
def State.setStackPair (s : State) (q : StackPair) (v : Word) : State :=
  match q with
  | .bc => { s with main := s.main.setBC v }
  | .de => { s with main := s.main.setDE v }
  | .hl => { s with main := s.main.setHL v }
  | .af => { s with main := { s.main with a := hiByte v, f := Flags.ofByte (loByte v) } }

/-- Reads XY (R42). -/
def State.xy (s : State) : IndexReg → Word
  | .ix => s.ix
  | .iy => s.iy

/-- Writes XY (R42). -/
def State.setXY (s : State) (i : IndexReg) (v : Word) : State :=
  match i with
  | .ix => { s with ix := v }
  | .iy => { s with iy := v }

/-- Reads XYH or XYL (R42). -/
def State.half (s : State) (i : IndexReg) : Half → Byte
  | .high => hiByte (s.xy i)
  | .low => loByte (s.xy i)

/-- Writes XYH or XYL; the other half is kept (R220). -/
def State.setHalf (s : State) (i : IndexReg) (h : Half) (v : Byte) : State :=
  match h with
  | .high => s.setXY i (join v (loByte (s.xy i)))
  | .low => s.setXY i (join (hiByte (s.xy i)) v)

/-- `x'[z]`: x with H replaced by XYH and L by XYL (R219). -/
def State.regOrHalf (s : State) (i : IndexReg) : Reg8 → Byte
  | .h => s.half i .high
  | .l => s.half i .low
  | r => s.reg r

/-- The second operand of `ADD XY,pp` (R403). -/
def State.indexPair (s : State) (i : IndexReg) : IndexPair → Word
  | .bc => s.main.bc
  | .de => s.main.de
  | .self => s.xy i
  | .sp => s.sp

/-- `w16(XY + sext_16(d))` (R157, R162). -/
def State.ea (s : State) (i : IndexReg) (d : Byte) : Word := s.xy i + sext16 d

/-! ### Effects on operands -/

/-- An ALU operation on A with the operand value `v`; CP leaves A (R323 to R330). -/
def State.aluA (s : State) (op : AluOp) (v : Byte) : State :=
  let p := alu8 op s.main.a v s.main.f.c s.freeByte
  { s.drawn with main := { s.main with a := p.1, f := p.2 } }

/-- The flags of INC of the byte `v` (R331). -/
def State.incFlagged (s : State) (v : Byte) : State := s.setFlags (incFlags s.main.f v s.freeByte)

/-- The flags of DEC of the byte `v` (R334). -/
def State.decFlagged (s : State) (v : Byte) : State := s.setFlags (decFlags s.main.f v s.freeByte)

/-- The result of a rotate or shift of `v` with the carry flag (R445 to R452). -/
def State.rotated (s : State) (op : RotOp) (v : Byte) : Byte := (rotate8 op v s.main.f.c).1

/-- The flags of a rotate or shift of `v` (47_rotate_shift_bit.md section 3). -/
def State.rotFlagged (s : State) (op : RotOp) (v : Byte) : State :=
  let p := rotate8 op v s.main.f.c
  s.setFlags (rotFlags s.main.f p.1 p.2 s.freeByte)

/-- The flags of BIT b of `v` (R455). -/
def State.bitFlagged (s : State) (b : BitVec 3) (v : Byte) : State := s.setFlags (bitFlags s.main.f b v s.freeByte)

/-- `v | (1 << b)` (R456). -/
def setBit (b : BitVec 3) (v : Byte) : Byte := v ||| (1 <<< b.toNat)

/-- `v & (0xFF ^ (1 << b))` (R457). -/
def resetBit (b : BitVec 3) (v : Byte) : Byte := v &&& (0xFF ^^^ (1 <<< b.toNat))

/-- An instruction without an index prefix of its own (an ignored one was taken before): its fetches, then its
effect. -/
def run (len : Word) (m1 : Byte) (t : Count) (f : State → State) (s : State) : Out := .next (f (s.fetched len m1 t))

/-- An instruction with its own index prefix: `len` bytes, `m1` opcode bytes and `t` T-states come after the prefix
byte, which adds 1, 1 and 4 (R153). -/
def runXY (i : IndexReg) (len : Word) (m1 : Byte) (t : Count) (f : State → State) (s : State) : Out :=
  .next (f ((s.ownPrefix i).fetched len m1 t))

end Sys2Proof.Machine
end

