-- ==== Sys2Proof/Machine/Arith16.lean ====
section
/-! DEFINITION. The 16-bit arithmetic group (46_arith16.md). -/

namespace Sys2Proof.Machine

/-- `ADD HL,ss` (R400). -/
def execAddHLPair (p : Pair) (st : State) : Out :=
  run 1 1 11
    (fun t =>
      let q := add16 t.main.hl (t.pair p) t.main.f t.freeByte
      (t.setPair .hl q.1).setFlags q.2) st

/-- `ADC HL,ss` (R401). -/
def execAdcHLPair (p : Pair) (st : State) : Out :=
  run 2 2 15
    (fun t =>
      let q := adc16 t.main.hl (t.pair p) t.main.f.c t.freeByte
      (t.setPair .hl q.1).setFlags q.2) st

/-- `SBC HL,ss` (R402). -/
def execSbcHLPair (p : Pair) (st : State) : Out :=
  run 2 2 15
    (fun t =>
      let q := sbc16 t.main.hl (t.pair p) t.main.f.c t.freeByte
      (t.setPair .hl q.1).setFlags q.2) st

/-- `ADD XY,pp` (R403). -/
def execAddXYPair (i : IndexReg) (p : IndexPair) (st : State) : Out :=
  runXY i 1 1 11
    (fun t =>
      let q := add16 (t.xy i) (t.indexPair i p) t.main.f t.freeByte
      (t.setXY i q.1).setFlags q.2) st

/-- `INC ss`: no flag changes (R404). -/
def execIncPair (p : Pair) (st : State) : Out := run 1 1 6 (fun t => t.setPair p (t.pair p + 1)) st

/-- `INC XY` (R405). -/
def execIncXY (i : IndexReg) (st : State) : Out := runXY i 1 1 6 (fun t => t.setXY i (t.xy i + 1)) st

/-- `DEC ss` (R406). -/
def execDecPair (p : Pair) (st : State) : Out := run 1 1 6 (fun t => t.setPair p (t.pair p - 1)) st

/-- `DEC XY` (R407). -/
def execDecXY (i : IndexReg) (st : State) : Out := runXY i 1 1 6 (fun t => t.setXY i (t.xy i - 1)) st

end Sys2Proof.Machine
end

