-- ==== Sys2Proof/Machine/Arith8.lean ====
section
/-! DEFINITION. The 8-bit arithmetic and logic group (44_arith8_logic.md). The five operand forms of R320 are written
once, over the ALU operation. -/

namespace Sys2Proof.Machine

/-! ### The operand forms of R320 -/

/-- Form r of R320. -/
def aluReg (op : AluOp) (s : Reg8) (st : State) : Out := run 1 1 4 (fun t => t.aluA op (t.reg s)) st

/-- Form n of R320. -/
def aluImm (op : AluOp) (n : Byte) (st : State) : Out := run 2 1 7 (fun t => t.aluA op n) st

/-- Form (HL) of R320. -/
def aluAtHL (op : AluOp) (st : State) : Out := run 1 1 7 (fun t => t.aluA op (t.readByte t.main.hl)) st

/-- Form (XY+d) of R320. -/
def aluAtXY (op : AluOp) (i : IndexReg) (d : Byte) (st : State) : Out :=
  runXY i 2 1 15 (fun t => t.aluA op (t.readByte (t.ea i d))) st

/-- Form XYH, XYL of R320. -/
def aluOnHalf (op : AluOp) (i : IndexReg) (h : Half) (st : State) : Out :=
  runXY i 1 1 4 (fun t => t.aluA op (t.half i h)) st

/-! ### The eight operations -/

/-- `ADD A,s` (R323). -/
def execAddR (s : Reg8) (st : State) : Out := aluReg .add s st

/-- `ADD A,n` (R323). -/
def execAddN (n : Byte) (st : State) : Out := aluImm .add n st

/-- `ADD A,(HL)` (R323). -/
def execAddIndHL (st : State) : Out := aluAtHL .add st

/-- `ADD A,(XY+d)` (R323). -/
def execAddIndXY (i : IndexReg) (d : Byte) (st : State) : Out := aluAtXY .add i d st

/-- `ADD A,XYH/XYL` (R323). -/
def execAddHalf (i : IndexReg) (h : Half) (st : State) : Out := aluOnHalf .add i h st

/-- `ADC A,s` (R324). -/
def execAdcR (s : Reg8) (st : State) : Out := aluReg .adc s st

/-- `ADC A,n` (R324). -/
def execAdcN (n : Byte) (st : State) : Out := aluImm .adc n st

/-- `ADC A,(HL)` (R324). -/
def execAdcIndHL (st : State) : Out := aluAtHL .adc st

/-- `ADC A,(XY+d)` (R324). -/
def execAdcIndXY (i : IndexReg) (d : Byte) (st : State) : Out := aluAtXY .adc i d st

/-- `ADC A,XYH/XYL` (R324). -/
def execAdcHalf (i : IndexReg) (h : Half) (st : State) : Out := aluOnHalf .adc i h st

/-- `SUB s` (R325). -/
def execSubR (s : Reg8) (st : State) : Out := aluReg .sub s st

/-- `SUB n` (R325). -/
def execSubN (n : Byte) (st : State) : Out := aluImm .sub n st

/-- `SUB (HL)` (R325). -/
def execSubIndHL (st : State) : Out := aluAtHL .sub st

/-- `SUB (XY+d)` (R325). -/
def execSubIndXY (i : IndexReg) (d : Byte) (st : State) : Out := aluAtXY .sub i d st

/-- `SUB XYH/XYL` (R325). -/
def execSubHalf (i : IndexReg) (h : Half) (st : State) : Out := aluOnHalf .sub i h st

/-- `SBC A,s` (R326). -/
def execSbcR (s : Reg8) (st : State) : Out := aluReg .sbc s st

/-- `SBC A,n` (R326). -/
def execSbcN (n : Byte) (st : State) : Out := aluImm .sbc n st

/-- `SBC A,(HL)` (R326). -/
def execSbcIndHL (st : State) : Out := aluAtHL .sbc st

/-- `SBC A,(XY+d)` (R326). -/
def execSbcIndXY (i : IndexReg) (d : Byte) (st : State) : Out := aluAtXY .sbc i d st

/-- `SBC A,XYH/XYL` (R326). -/
def execSbcHalf (i : IndexReg) (h : Half) (st : State) : Out := aluOnHalf .sbc i h st

/-- `AND s` (R327). -/
def execAndR (s : Reg8) (st : State) : Out := aluReg .and s st

/-- `AND n` (R327). -/
def execAndN (n : Byte) (st : State) : Out := aluImm .and n st

/-- `AND (HL)` (R327). -/
def execAndIndHL (st : State) : Out := aluAtHL .and st

/-- `AND (XY+d)` (R327). -/
def execAndIndXY (i : IndexReg) (d : Byte) (st : State) : Out := aluAtXY .and i d st

/-- `AND XYH/XYL` (R327). -/
def execAndHalf (i : IndexReg) (h : Half) (st : State) : Out := aluOnHalf .and i h st

/-- `XOR s` (R328). -/
def execXorR (s : Reg8) (st : State) : Out := aluReg .xor s st

/-- `XOR n` (R328). -/
def execXorN (n : Byte) (st : State) : Out := aluImm .xor n st

/-- `XOR (HL)` (R328). -/
def execXorIndHL (st : State) : Out := aluAtHL .xor st

/-- `XOR (XY+d)` (R328). -/
def execXorIndXY (i : IndexReg) (d : Byte) (st : State) : Out := aluAtXY .xor i d st

/-- `XOR XYH/XYL` (R328). -/
def execXorHalf (i : IndexReg) (h : Half) (st : State) : Out := aluOnHalf .xor i h st

/-- `OR s` (R329). -/
def execOrR (s : Reg8) (st : State) : Out := aluReg .or s st

/-- `OR n` (R329). -/
def execOrN (n : Byte) (st : State) : Out := aluImm .or n st

/-- `OR (HL)` (R329). -/
def execOrIndHL (st : State) : Out := aluAtHL .or st

/-- `OR (XY+d)` (R329). -/
def execOrIndXY (i : IndexReg) (d : Byte) (st : State) : Out := aluAtXY .or i d st

/-- `OR XYH/XYL` (R329). -/
def execOrHalf (i : IndexReg) (h : Half) (st : State) : Out := aluOnHalf .or i h st

/-- `CP s` (R330). -/
def execCpR (s : Reg8) (st : State) : Out := aluReg .cp s st

/-- `CP n` (R330). -/
def execCpN (n : Byte) (st : State) : Out := aluImm .cp n st

/-- `CP (HL)` (R330). -/
def execCpIndHL (st : State) : Out := aluAtHL .cp st

/-- `CP (XY+d)` (R330). -/
def execCpIndXY (i : IndexReg) (d : Byte) (st : State) : Out := aluAtXY .cp i d st

/-- `CP XYH/XYL` (R330). -/
def execCpHalf (i : IndexReg) (h : Half) (st : State) : Out := aluOnHalf .cp i h st

/-! ### Increment and decrement -/

/-- `INC r` (R331). -/
def execIncR (r : Reg8) (st : State) : Out :=
  run 1 1 4 (fun t => (t.setReg r (t.reg r + 1)).incFlagged (t.reg r)) st

/-- `INC (HL)`: the flags come from the byte read even when the store is a no-op (R332). -/
def execIncIndHL (st : State) : Out :=
  run 1 1 11 (fun t => (t.writeByte t.main.hl (t.readByte t.main.hl + 1)).incFlagged (t.readByte t.main.hl)) st

/-- `INC (XY+d)` (R333). -/
def execIncIndXY (i : IndexReg) (d : Byte) (st : State) : Out :=
  runXY i 2 1 19 (fun t => (t.writeByte (t.ea i d) (t.readByte (t.ea i d) + 1)).incFlagged (t.readByte (t.ea i d))) st

/-- `INC XYH/XYL` (R331). -/
def execIncHalf (i : IndexReg) (h : Half) (st : State) : Out :=
  runXY i 1 1 4 (fun t => (t.setHalf i h (t.half i h + 1)).incFlagged (t.half i h)) st

/-- `DEC r` (R334). -/
def execDecR (r : Reg8) (st : State) : Out :=
  run 1 1 4 (fun t => (t.setReg r (t.reg r - 1)).decFlagged (t.reg r)) st

/-- `DEC (HL)`: the flags come from the byte read even when the store is a no-op (R335). -/
def execDecIndHL (st : State) : Out :=
  run 1 1 11 (fun t => (t.writeByte t.main.hl (t.readByte t.main.hl - 1)).decFlagged (t.readByte t.main.hl)) st

/-- `DEC (XY+d)` (R336). -/
def execDecIndXY (i : IndexReg) (d : Byte) (st : State) : Out :=
  runXY i 2 1 19 (fun t => (t.writeByte (t.ea i d) (t.readByte (t.ea i d) - 1)).decFlagged (t.readByte (t.ea i d))) st

/-- `DEC XYH/XYL` (R334). -/
def execDecHalf (i : IndexReg) (h : Half) (st : State) : Out :=
  runXY i 1 1 4 (fun t => (t.setHalf i h (t.half i h - 1)).decFlagged (t.half i h)) st

end Sys2Proof.Machine
end

