-- ==== Sys2Proof/Machine/Control.lean ====
section
/-! DEFINITION. The general-purpose arithmetic and CPU control group (45_general_cpu_control.md). -/

namespace Sys2Proof.Machine

/-- `DAA` (R360). -/
def execDaa (st : State) : Out :=
  run 1 1 4
    (fun t =>
      let p := daa8 t.main.a t.main.f t.freeByte
      (t.setReg .a p.1).setFlags p.2) st

/-- `CPL` (R361). -/
def execCpl (st : State) : Out :=
  run 1 1 4
    (fun t => (t.setReg .a (t.main.a ^^^ 0xFF)).setFlags { t.main.f.drawXY t.freeByte with h := true, n := true }) st

/-- `A <- Sub8(0, A, 0)` (R362). -/
def State.negated (t : State) : State :=
  let p := sub8 0 t.main.a false t.freeByte
  (t.setReg .a p.1).setFlags p.2

/-- `NEG` (R362). -/
def execNeg (st : State) : Out := run 2 2 8 State.negated st

/-- `NEG`, a duplicate encoding: the field is ignored (R158, R362). -/
def execNegDup (_y : BitVec 3) (st : State) : Out := run 2 2 8 State.negated st

/-- `CCF`: H takes the old C (R363). -/
def execCcf (st : State) : Out :=
  run 1 1 4
    (fun t => t.setFlags { t.main.f.drawXY t.freeByte with h := t.main.f.c, n := false, c := !t.main.f.c }) st

/-- `SCF` (R364). -/
def execScf (st : State) : Out :=
  run 1 1 4 (fun t => t.setFlags { t.main.f.drawXY t.freeByte with h := false, n := false, c := true }) st

/-- `NOP` (R365). -/
def execNop (st : State) : Out := run 1 1 4 id st

/-- `HALT`: PC already points past it (R366). -/
def execHalt (st : State) : Out := run 1 1 4 (fun t => { t with halted := true }) st

/-- `DI` (R367). -/
def execDi (st : State) : Out := run 1 1 4 (fun t => { t with iff1 := false, iff2 := false }) st

/-- `EI`, without a delay (R368). -/
def execEi (st : State) : Out := run 1 1 4 (fun t => { t with iff1 := true, iff2 := true }) st

/-- `IM <- mode` (R369). -/
def setIM (mode : BitVec 2) (st : State) : Out := run 2 2 8 (fun t => { t with im := mode }) st

/-- `IM 0` (R369). -/
def execIm0 (st : State) : Out := setIM 0 st

/-- `IM 0`, a duplicate encoding (R158, R369). -/
def execIm0Dup (_y : BitVec 3) (st : State) : Out := setIM 0 st

/-- `IM 1` (R369). -/
def execIm1 (st : State) : Out := setIM 1 st

/-- `IM 1`, a duplicate encoding (R158, R369). -/
def execIm1Dup (st : State) : Out := setIM 1 st

/-- `IM 2` (R369). -/
def execIm2 (st : State) : Out := setIM 2 st

/-- `IM 2`, a duplicate encoding (R158, R369). -/
def execIm2Dup (st : State) : Out := setIM 2 st

/-- An ED hole: a no-op (R159, R370). -/
def execEdHole (_w : Byte) (st : State) : Out := run 2 2 8 id st

end Sys2Proof.Machine
end

