-- ==== Sys2Proof/Machine/Exchange.lean ====
section
/-! DEFINITION. The exchange, block transfer and search group (43_exchange_block.md). -/

namespace Sys2Proof.Machine

/-- `EX DE,HL` (R280). -/
def execExDEHL (st : State) : Out :=
  run 1 1 4 (fun t => { t with main := { t.main with d := t.main.h, e := t.main.l, h := t.main.d, l := t.main.e } }) st

/-- `EX AF,AF'`: all eight bits of F move (R281). -/
def execExAFAF (st : State) : Out :=
  run 1 1 4
    (fun t =>
      { t with
        main := { t.main with a := t.alt.a, f := t.alt.f }
        alt := { t.alt with a := t.main.a, f := t.main.f } }) st

/-- `EXX`: A and F stay (R282). -/
def execExx (st : State) : Out :=
  run 1 1 4
    (fun t =>
      { t with
        main := { t.alt with a := t.main.a, f := t.main.f }
        alt := { t.main with a := t.alt.a, f := t.alt.f } }) st

/-- `EX (SP),HL` (R283). -/
def execExSPHL (st : State) : Out :=
  run 1 1 19 (fun t => (t.writeWord t.sp t.main.hl).setPair .hl (t.readWord t.sp)) st

/-- `EX (SP),XY` (R284). -/
def execExSPXY (i : IndexReg) (st : State) : Out :=
  runXY i 1 1 19 (fun t => (t.writeWord t.sp (t.xy i)).setXY i (t.readWord t.sp)) st

/-! ### Block instructions -/

/-- A step of the block instructions' addresses: +1 or -1 (R286, R288). -/
def stepBy (back : Bool) (a : Word) : Word := if back then a - 1 else a + 1

/-- The effect of LDI (`back` = false) or LDD (`back` = true) (R286, R288). -/
def State.blockMove (back : Bool) (t : State) : State :=
  let u := t.writeByte t.main.de (t.readByte t.main.hl)
  let bc := t.main.bc - 1
  let g := ((u.main.setHL (stepBy back t.main.hl)).setDE (stepBy back t.main.de)).setBC bc
  { u with main := g }.setFlags (moveFlags t.main.f bc t.freeByte)

/-- The effect of CPI (`back` = false) or CPD (`back` = true) (R290, R292). -/
def State.blockSearch (back : Bool) (t : State) : State :=
  let v := t.readByte t.main.hl
  let bc := t.main.bc - 1
  { t with main := (t.main.setHL (stepBy back t.main.hl)).setBC bc }.setFlags
    (searchFlags t.main.f t.main.a v bc t.freeByte)

/-- The end of one iteration of a repeating form, whose effect already charged 16 T-states: while `again` holds, PC
goes back to the 0xED byte and 5 more T-states are charged, 21 in all (R285). -/
def State.repeatIf (again : Bool) (t : State) : State :=
  if again then { t with pc := t.pc - 2, tstates := t.tstates + 5 } else t

/-- `BC != 0` (R287). -/
def State.bcLeft (t : State) : Bool := t.main.bc != 0

/-- `LDI` (R286). -/
def execLdi (st : State) : Out := run 2 2 16 (State.blockMove false) st

/-- `LDIR`, one iteration (R287). -/
def execLdir (st : State) : Out :=
  run 2 2 16 (fun t => let u := t.blockMove false; u.repeatIf u.bcLeft) st

/-- `LDD` (R288). -/
def execLdd (st : State) : Out := run 2 2 16 (State.blockMove true) st

/-- `LDDR`, one iteration (R289). -/
def execLddr (st : State) : Out :=
  run 2 2 16 (fun t => let u := t.blockMove true; u.repeatIf u.bcLeft) st

/-- `CPI` (R290). -/
def execCpi (st : State) : Out := run 2 2 16 (State.blockSearch false) st

/-- `CPIR`, one iteration: it stops on a match too (R291). -/
def execCpir (st : State) : Out :=
  run 2 2 16 (fun t => let u := t.blockSearch false; u.repeatIf (u.bcLeft && !u.main.f.z)) st

/-- `CPD` (R292). -/
def execCpd (st : State) : Out := run 2 2 16 (State.blockSearch true) st

/-- `CPDR`, one iteration (R293). -/
def execCpdr (st : State) : Out :=
  run 2 2 16 (fun t => let u := t.blockSearch true; u.repeatIf (u.bcLeft && !u.main.f.z)) st

end Sys2Proof.Machine
end

