-- ==== Sys2Proof/Machine/Io.lean ====
section
/-! DEFINITION. The input and output group (49_io.md). A port read draws a fresh keyboard value (R123). -/

namespace Sys2Proof.Machine

/-- `IN A,(n)`: the high port byte is A, and no flag changes (R561). -/
def execInAN (n : Byte) (st : State) : Out :=
  run 2 1 11 (fun t => (t.setReg .a (t.portRead t.main.a n)).drawn) st

/-- The flags of the byte read from the port (B, C) (R562). -/
def State.inFlagged (t : State) (v : Byte) : State := t.setFlags (inFlags t.main.f v t.freeByte)

/-- `IN r,(C)` (R562). -/
def execInRC (r : Reg8) (st : State) : Out :=
  run 2 2 12
    (fun t =>
      let v := t.portRead t.main.b t.main.c
      (t.setReg r v).inFlagged v) st

/-- `IN F,(C)`: only the flags are written (R563). -/
def execInFC (st : State) : Out := run 2 2 12 (fun t => t.inFlagged (t.portRead t.main.b t.main.c)) st

/-- The effect of INI (`back` = false) or IND (`back` = true): the port's high byte is B before the decrement
(R564, R566). -/
def State.blockIn (back : Bool) (t : State) : State :=
  let u := t.writeByte t.main.hl (t.portRead t.main.b t.main.c)
  let b := t.main.b - 1
  { u with main := { u.main.setHL (stepBy back t.main.hl) with b := b } }.setFlags (blockIoFlags b t.freeByte)

/-- The effect of OUTI (`back` = false) or OUTD (`back` = true): the port's high byte is B after the decrement
(R571, R573). -/
def State.blockOut (back : Bool) (t : State) : State :=
  let b := t.main.b - 1
  let u := t.portWrite b t.main.c (t.readByte t.main.hl)
  { u with main := { u.main.setHL (stepBy back t.main.hl) with b := b } }.setFlags (blockIoFlags b t.freeByte)

/-- `B != 0` (R565). -/
def State.bLeft (t : State) : Bool := t.main.b != 0

/-- `INI` (R564). -/
def execIni (st : State) : Out := run 2 2 16 (State.blockIn false) st

/-- `INIR`, one iteration (R565). -/
def execInir (st : State) : Out := run 2 2 16 (fun t => let u := t.blockIn false; u.repeatIf u.bLeft) st

/-- `IND` (R566). -/
def execInd (st : State) : Out := run 2 2 16 (State.blockIn true) st

/-- `INDR`, one iteration (R567). -/
def execIndr (st : State) : Out := run 2 2 16 (fun t => let u := t.blockIn true; u.repeatIf u.bLeft) st

/-- `OUT (n),A` (R568). -/
def execOutNA (n : Byte) (st : State) : Out := run 2 1 11 (fun t => t.portWrite t.main.a n t.main.a) st

/-- `OUT (C),r` (R569). -/
def execOutCR (r : Reg8) (st : State) : Out := run 2 2 12 (fun t => t.portWrite t.main.b t.main.c (t.reg r)) st

/-- `OUT (C),0` (R570). -/
def execOutC0 (st : State) : Out := run 2 2 12 (fun t => t.portWrite t.main.b t.main.c 0) st

/-- `OUTI` (R571). -/
def execOuti (st : State) : Out := run 2 2 16 (State.blockOut false) st

/-- `OTIR`, one iteration (R572). -/
def execOtir (st : State) : Out := run 2 2 16 (fun t => let u := t.blockOut false; u.repeatIf u.bLeft) st

/-- `OUTD` (R573). -/
def execOutd (st : State) : Out := run 2 2 16 (State.blockOut true) st

/-- `OTDR`, one iteration (R574). -/
def execOtdr (st : State) : Out := run 2 2 16 (fun t => let u := t.blockOut true; u.repeatIf u.bLeft) st

end Sys2Proof.Machine
end

