-- ==== Sys2Proof/Machine/Jump.lean ====
section
/-! DEFINITION. The jump, call and return group (48_control_transfer.md). In an effect, PC is the address after the
instruction's last byte (R46). -/

namespace Sys2Proof.Machine

/-- `PC <- w16(PC + sext_16(e))` (R502). -/
def State.jumpBy (t : State) (e : Byte) : State := { t with pc := t.pc + sext16 e }

/-- `Push16(PC); PC <- target` (R507, R532). -/
def State.callTo (t : State) (target : Word) : State := { t.push16 t.pc with pc := target }

/-- `PC <- Pop16()` (R509). -/
def State.returned (t : State) : State := { t.popped with pc := t.popValue }

/-- Adds the T-states of a condition that held. -/
def State.charged (t : State) (n : Count) : State := { t with tstates := t.tstates + n }

/-- `JP nn` (R500). -/
def execJp (nn : Word) (st : State) : Out := run 3 1 10 (fun t => { t with pc := nn }) st

/-- `JP cc,nn` (R501). -/
def execJpCond (cc : Cond) (nn : Word) (st : State) : Out :=
  run 3 1 10 (fun t => if t.main.f.holds cc then { t with pc := nn } else t) st

/-- `JR e` (R502). -/
def execJr (e : Byte) (st : State) : Out := run 2 1 12 (fun t => t.jumpBy e) st

/-- `JR cc,e`: 12 T-states if taken, 7 if not (R503). -/
def execJrCond (cc : Cond) (e : Byte) (st : State) : Out :=
  run 2 1 7 (fun t => if t.main.f.holds cc then (t.jumpBy e).charged 5 else t) st

/-- `JP (HL)`: no memory is read (R504). -/
def execJpHL (st : State) : Out := run 1 1 4 (fun t => { t with pc := t.main.hl }) st

/-- `JP (XY)` (R505). -/
def execJpXY (i : IndexReg) (st : State) : Out := runXY i 1 1 4 (fun t => { t with pc := t.xy i }) st

/-- `DJNZ e`: 13 T-states if it jumps, 8 if not (R506). -/
def execDjnz (e : Byte) (st : State) : Out :=
  run 2 1 8
    (fun t =>
      let u := t.setReg .b (t.main.b - 1)
      if t.main.b - 1 = 0 then u else (u.jumpBy e).charged 5) st

/-- `CALL nn` (R507). -/
def execCall (nn : Word) (st : State) : Out := run 3 1 17 (fun t => t.callTo nn) st

/-- `CALL cc,nn`: 17 T-states if taken, 10 if not (R508). -/
def execCallCond (cc : Cond) (nn : Word) (st : State) : Out :=
  run 3 1 10 (fun t => if t.main.f.holds cc then (t.callTo nn).charged 7 else t) st

/-- `RET` (R509). -/
def execRet (st : State) : Out := run 1 1 10 State.returned st

/-- `RET cc`: 11 T-states if taken, 5 if not (R510). -/
def execRetCond (cc : Cond) (st : State) : Out :=
  run 1 1 5 (fun t => if t.main.f.holds cc then t.returned.charged 6 else t) st

/-- `RETI` (R530). -/
def execReti (st : State) : Out := run 2 2 14 State.returnFromInterrupt st

/-- `RETN` (R531). -/
def execRetn (st : State) : Out := run 2 2 14 State.returnFromInterrupt st

/-- `RETN`, a duplicate encoding (R158, R531). -/
def execRetnDup (_y : BitVec 3) (st : State) : Out := run 2 2 14 State.returnFromInterrupt st

/-- `RST p`, p = t * 8 (R162, R532). -/
def execRst (t : BitVec 3) (st : State) : Out := run 1 1 11 (fun u => u.callTo (t.setWidth 16 <<< 3)) st

end Sys2Proof.Machine
end

