-- ==== Sys2Proof/Machine/Load16.lean ====
section
/-! DEFINITION. The 16-bit load group and the stack (42_load16_stack.md). -/

namespace Sys2Proof.Machine

/-- `LD dd,nn` (R240). -/
def execLdPairNN (p : Pair) (nn : Word) (st : State) : Out := run 3 1 10 (fun t => t.setPair p nn) st

/-- `LD XY,nn` (R241). -/
def execLdXYNN (i : IndexReg) (nn : Word) (st : State) : Out := runXY i 3 1 10 (fun t => t.setXY i nn) st

/-- `LD HL,(nn)` (R242). -/
def execLdHLMem (nn : Word) (st : State) : Out := run 3 1 16 (fun t => t.setPair .hl (t.readWord nn)) st

/-- `LD dd,(nn)`, the ED form (R243). -/
def execLdPairMem (p : Pair) (nn : Word) (st : State) : Out := run 4 2 20 (fun t => t.setPair p (t.readWord nn)) st

/-- `LD XY,(nn)` (R244). -/
def execLdXYMem (i : IndexReg) (nn : Word) (st : State) : Out :=
  runXY i 3 1 16 (fun t => t.setXY i (t.readWord nn)) st

/-- `LD (nn),HL` (R245). -/
def execLdMemHL (nn : Word) (st : State) : Out := run 3 1 16 (fun t => t.writeWord nn t.main.hl) st

/-- `LD (nn),dd`, the ED form (R246). -/
def execLdMemPair (p : Pair) (nn : Word) (st : State) : Out := run 4 2 20 (fun t => t.writeWord nn (t.pair p)) st

/-- `LD (nn),XY` (R247). -/
def execLdMemXY (i : IndexReg) (nn : Word) (st : State) : Out :=
  runXY i 3 1 16 (fun t => t.writeWord nn (t.xy i)) st

/-- `LD SP,HL` (R248). -/
def execLdSPHL (st : State) : Out := run 1 1 6 (fun t => { t with sp := t.main.hl }) st

/-- `LD SP,XY` (R249). -/
def execLdSPXY (i : IndexReg) (st : State) : Out := runXY i 1 1 6 (fun t => { t with sp := t.xy i }) st

/-- `PUSH qq` (R251). -/
def execPushPair (q : StackPair) (st : State) : Out := run 1 1 11 (fun t => t.push16 (t.stackPair q)) st

/-- `PUSH XY` (R252). -/
def execPushXY (i : IndexReg) (st : State) : Out := runXY i 1 1 11 (fun t => t.push16 (t.xy i)) st

/-- `POP qq` (R253). -/
def execPopPair (q : StackPair) (st : State) : Out := run 1 1 10 (fun t => t.popped.setStackPair q t.popValue) st

/-- `POP XY` (R254). -/
def execPopXY (i : IndexReg) (st : State) : Out := runXY i 1 1 10 (fun t => t.popped.setXY i t.popValue) st

end Sys2Proof.Machine
end

