-- ==== Sys2Proof/Machine/Load8.lean ====
section
/-! DEFINITION. The 8-bit load group (41_load8.md). -/

namespace Sys2Proof.Machine

/-- `LD r,s` (R201). -/
def execLdRR (r s : Reg8) (st : State) : Out := run 1 1 4 (fun t => t.setReg r (t.reg s)) st

/-- `LD r,n` (R202). -/
def execLdRN (r : Reg8) (n : Byte) (st : State) : Out := run 2 1 7 (fun t => t.setReg r n) st

/-- `LD r,(HL)` (R203). -/
def execLdRIndHL (r : Reg8) (st : State) : Out := run 1 1 7 (fun t => t.setReg r (t.readByte t.main.hl)) st

/-- `LD r,(XY+d)`: H and L stay H and L (R204). -/
def execLdRIndXY (i : IndexReg) (r : Reg8) (d : Byte) (st : State) : Out :=
  runXY i 2 1 15 (fun t => t.setReg r (t.readByte (t.ea i d))) st

/-- `LD (HL),s` (R205). -/
def execLdIndHLR (s : Reg8) (st : State) : Out := run 1 1 7 (fun t => t.writeByte t.main.hl (t.reg s)) st

/-- `LD (XY+d),s`: H and L stay H and L (R206). -/
def execLdIndXYR (i : IndexReg) (s : Reg8) (d : Byte) (st : State) : Out :=
  runXY i 2 1 15 (fun t => t.writeByte (t.ea i d) (t.reg s)) st

/-- `LD (HL),n` (R207). -/
def execLdIndHLN (n : Byte) (st : State) : Out := run 2 1 10 (fun t => t.writeByte t.main.hl n) st

/-- `LD (XY+d),n` (R208). -/
def execLdIndXYN (i : IndexReg) (d n : Byte) (st : State) : Out :=
  runXY i 3 1 15 (fun t => t.writeByte (t.ea i d) n) st

/-- `LD A,(BC)` (R209). -/
def execLdAIndBC (st : State) : Out := run 1 1 7 (fun t => t.setReg .a (t.readByte t.main.bc)) st

/-- `LD A,(DE)` (R210). -/
def execLdAIndDE (st : State) : Out := run 1 1 7 (fun t => t.setReg .a (t.readByte t.main.de)) st

/-- `LD A,(nn)` (R211). -/
def execLdAMem (nn : Word) (st : State) : Out := run 3 1 13 (fun t => t.setReg .a (t.readByte nn)) st

/-- `LD (BC),A` (R212). -/
def execLdIndBCA (st : State) : Out := run 1 1 7 (fun t => t.writeByte t.main.bc t.main.a) st

/-- `LD (DE),A` (R213). -/
def execLdIndDEA (st : State) : Out := run 1 1 7 (fun t => t.writeByte t.main.de t.main.a) st

/-- `LD (nn),A` (R214). -/
def execLdMemA (nn : Word) (st : State) : Out := run 3 1 13 (fun t => t.writeByte nn t.main.a) st

/-- The flags of LD A,I and LD A,R from the value loaded: P/V is IFF2 (R215, R216). -/
def State.loadSpecial (t : State) (v : Byte) : State :=
  (t.setReg .a v).setFlags
    { (t.main.f.setSZ v).drawXY t.freeByte with h := false, pv := t.iff2, n := false }

/-- `LD A,I` (R215). -/
def execLdAI (st : State) : Out := run 2 2 9 (fun t => t.loadSpecial t.i) st

/-- `LD A,R`: R is read after both increments of the instruction (R216). -/
def execLdAR (st : State) : Out := run 2 2 9 (fun t => t.loadSpecial t.r) st

/-- `LD I,A` (R217). -/
def execLdIA (st : State) : Out := run 2 2 9 (fun t => { t with i := t.main.a }) st

/-- `LD R,A`: R is set after the two fetch increments (R218). -/
def execLdRA (st : State) : Out := run 2 2 9 (fun t => { t with r := t.main.a }) st

/-- `LD r,XYH/XYL` (R219). -/
def execLdRHalf (i : IndexReg) (r : Reg8) (h : Half) (st : State) : Out :=
  runXY i 1 1 4 (fun t => t.setReg r (t.half i h)) st

/-- `LD XYH/XYL,s`, with `s` = H read as XYH and L as XYL (R219). -/
def execLdHalfR (i : IndexReg) (h : Half) (s : Reg8) (st : State) : Out :=
  runXY i 1 1 4 (fun t => t.setHalf i h (t.regOrHalf i s)) st

/-- `LD XYH/XYL,n` (R220). -/
def execLdHalfN (i : IndexReg) (h : Half) (n : Byte) (st : State) : Out :=
  runXY i 2 1 7 (fun t => t.setHalf i h n) st

end Sys2Proof.Machine
end

