-- ==== Sys2Proof/Machine/Rotate.lean ====
section
/-! DEFINITION. The rotate, shift and bit group (47_rotate_shift_bit.md). The operand forms of R444 are written once. -/

namespace Sys2Proof.Machine

/-! ### Accumulator rotates -/

/-- An accumulator rotate: the result and carry of a CB rotate of A, with S, Z and P/V kept (R440 to R443). -/
def rotateA (op : RotOp) (st : State) : Out :=
  run 1 1 4
    (fun t =>
      let p := rotate8 op t.main.a t.main.f.c
      (t.setReg .a p.1).setFlags (rotAFlags t.main.f p.2 t.freeByte)) st

/-- `RLCA` (R440). -/
def execRlca (st : State) : Out := rotateA .rlc st

/-- `RLA` (R441). -/
def execRla (st : State) : Out := rotateA .rl st

/-- `RRCA` (R442). -/
def execRrca (st : State) : Out := rotateA .rrc st

/-- `RRA` (R443). -/
def execRra (st : State) : Out := rotateA .rr st

/-! ### The operand forms of R444 for the rotates and shifts -/

/-- Form r of R444. -/
def rotateReg (op : RotOp) (s : Reg8) (st : State) : Out :=
  run 2 2 8 (fun t => (t.setReg s (t.rotated op (t.reg s))).rotFlagged op (t.reg s)) st

/-- Form (HL) of R444. -/
def rotateAtHL (op : RotOp) (st : State) : Out :=
  run 2 2 15
    (fun t =>
      let v := t.readByte t.main.hl
      (t.writeByte t.main.hl (t.rotated op v)).rotFlagged op v) st

/-- Form (XY+d) of R444: 0xCB, d and op2 follow the index prefix, and only 0xCB of them is an opcode fetch (R152). -/
def rotateAtXY (op : RotOp) (i : IndexReg) (d : Byte) (st : State) : Out :=
  runXY i 3 1 19
    (fun t =>
      let v := t.readByte (t.ea i d)
      (t.writeByte (t.ea i d) (t.rotated op v)).rotFlagged op v) st

/-- Form (XY+d)->r of R444: the copy happens even when the store is a no-op. -/
def rotateAtXYCopy (op : RotOp) (i : IndexReg) (d : Byte) (s : Reg8) (st : State) : Out :=
  runXY i 3 1 19
    (fun t =>
      let v := t.readByte (t.ea i d)
      ((t.writeByte (t.ea i d) (t.rotated op v)).rotFlagged op v).setReg s (t.rotated op v)) st

/-! ### The eight rotates and shifts -/

/-- `RLC s` (R445). -/
def execRlcR (s : Reg8) (st : State) : Out := rotateReg .rlc s st

/-- `RLC (HL)` (R445). -/
def execRlcIndHL (st : State) : Out := rotateAtHL .rlc st

/-- `RLC (XY+d)` (R445). -/
def execRlcIndXY (i : IndexReg) (d : Byte) (st : State) : Out := rotateAtXY .rlc i d st

/-- `RLC (XY+d)` with the register copy (R444, R445). -/
def execRlcIndXYR (i : IndexReg) (d : Byte) (s : Reg8) (st : State) : Out := rotateAtXYCopy .rlc i d s st

/-- `RRC s` (R446). -/
def execRrcR (s : Reg8) (st : State) : Out := rotateReg .rrc s st

/-- `RRC (HL)` (R446). -/
def execRrcIndHL (st : State) : Out := rotateAtHL .rrc st

/-- `RRC (XY+d)` (R446). -/
def execRrcIndXY (i : IndexReg) (d : Byte) (st : State) : Out := rotateAtXY .rrc i d st

/-- `RRC (XY+d)` with the register copy (R444, R446). -/
def execRrcIndXYR (i : IndexReg) (d : Byte) (s : Reg8) (st : State) : Out := rotateAtXYCopy .rrc i d s st

/-- `RL s` (R447). -/
def execRlR (s : Reg8) (st : State) : Out := rotateReg .rl s st

/-- `RL (HL)` (R447). -/
def execRlIndHL (st : State) : Out := rotateAtHL .rl st

/-- `RL (XY+d)` (R447). -/
def execRlIndXY (i : IndexReg) (d : Byte) (st : State) : Out := rotateAtXY .rl i d st

/-- `RL (XY+d)` with the register copy (R444, R447). -/
def execRlIndXYR (i : IndexReg) (d : Byte) (s : Reg8) (st : State) : Out := rotateAtXYCopy .rl i d s st

/-- `RR s` (R448). -/
def execRrR (s : Reg8) (st : State) : Out := rotateReg .rr s st

/-- `RR (HL)` (R448). -/
def execRrIndHL (st : State) : Out := rotateAtHL .rr st

/-- `RR (XY+d)` (R448). -/
def execRrIndXY (i : IndexReg) (d : Byte) (st : State) : Out := rotateAtXY .rr i d st

/-- `RR (XY+d)` with the register copy (R444, R448). -/
def execRrIndXYR (i : IndexReg) (d : Byte) (s : Reg8) (st : State) : Out := rotateAtXYCopy .rr i d s st

/-- `SLA s` (R449). -/
def execSlaR (s : Reg8) (st : State) : Out := rotateReg .sla s st

/-- `SLA (HL)` (R449). -/
def execSlaIndHL (st : State) : Out := rotateAtHL .sla st

/-- `SLA (XY+d)` (R449). -/
def execSlaIndXY (i : IndexReg) (d : Byte) (st : State) : Out := rotateAtXY .sla i d st

/-- `SLA (XY+d)` with the register copy (R444, R449). -/
def execSlaIndXYR (i : IndexReg) (d : Byte) (s : Reg8) (st : State) : Out := rotateAtXYCopy .sla i d s st

/-- `SRA s` (R450). -/
def execSraR (s : Reg8) (st : State) : Out := rotateReg .sra s st

/-- `SRA (HL)` (R450). -/
def execSraIndHL (st : State) : Out := rotateAtHL .sra st

/-- `SRA (XY+d)` (R450). -/
def execSraIndXY (i : IndexReg) (d : Byte) (st : State) : Out := rotateAtXY .sra i d st

/-- `SRA (XY+d)` with the register copy (R444, R450). -/
def execSraIndXYR (i : IndexReg) (d : Byte) (s : Reg8) (st : State) : Out := rotateAtXYCopy .sra i d s st

/-- `SLL s` (R451). -/
def execSllR (s : Reg8) (st : State) : Out := rotateReg .sll s st

/-- `SLL (HL)` (R451). -/
def execSllIndHL (st : State) : Out := rotateAtHL .sll st

/-- `SLL (XY+d)` (R451). -/
def execSllIndXY (i : IndexReg) (d : Byte) (st : State) : Out := rotateAtXY .sll i d st

/-- `SLL (XY+d)` with the register copy (R444, R451). -/
def execSllIndXYR (i : IndexReg) (d : Byte) (s : Reg8) (st : State) : Out := rotateAtXYCopy .sll i d s st

/-- `SRL s` (R452). -/
def execSrlR (s : Reg8) (st : State) : Out := rotateReg .srl s st

/-- `SRL (HL)` (R452). -/
def execSrlIndHL (st : State) : Out := rotateAtHL .srl st

/-- `SRL (XY+d)` (R452). -/
def execSrlIndXY (i : IndexReg) (d : Byte) (st : State) : Out := rotateAtXY .srl i d st

/-- `SRL (XY+d)` with the register copy (R444, R452). -/
def execSrlIndXYR (i : IndexReg) (d : Byte) (s : Reg8) (st : State) : Out := rotateAtXYCopy .srl i d s st

/-! ### Digit rotates -/

/-- `RLD` (R453). -/
def execRld (st : State) : Out :=
  run 2 2 18
    (fun t =>
      let v := t.readByte t.main.hl
      let a := (t.main.a &&& 0xF0) ||| (v >>> 4)
      ((t.writeByte t.main.hl ((v <<< 4) ||| (t.main.a &&& 0x0F))).setReg .a a).setFlags
        (inFlags t.main.f a t.freeByte)) st

/-- `RRD` (R454). -/
def execRrd (st : State) : Out :=
  run 2 2 18
    (fun t =>
      let v := t.readByte t.main.hl
      let a := (t.main.a &&& 0xF0) ||| (v &&& 0x0F)
      ((t.writeByte t.main.hl (((t.main.a &&& 0x0F) <<< 4) ||| (v >>> 4))).setReg .a a).setFlags
        (inFlags t.main.f a t.freeByte)) st

/-! ### Bit test, set and reset -/

/-- `BIT b,s` (R455). -/
def execBitR (b : BitVec 3) (s : Reg8) (st : State) : Out := run 2 2 8 (fun t => t.bitFlagged b (t.reg s)) st

/-- `BIT b,(HL)` (R455). -/
def execBitIndHL (b : BitVec 3) (st : State) : Out :=
  run 2 2 12 (fun t => t.bitFlagged b (t.readByte t.main.hl)) st

/-- BIT of the byte at (XY+d) (R455). -/
def bitAtXY (i : IndexReg) (d : Byte) (b : BitVec 3) (st : State) : Out :=
  runXY i 3 1 16 (fun t => t.bitFlagged b (t.readByte (t.ea i d))) st

/-- `BIT b,(XY+d)` (R455). -/
def execBitIndXY (i : IndexReg) (d : Byte) (b : BitVec 3) (st : State) : Out := bitAtXY i d b st

/-- `BIT b,(XY+d)`, a duplicate encoding: the register field is ignored (R158, R455). -/
def execBitIndXYDup (i : IndexReg) (d : Byte) (b : BitVec 3) (_s : Reg8) (st : State) : Out := bitAtXY i d b st

/-- The register form of SET and RES: `f` is the change of the byte (R444). -/
def changeReg (f : Byte → Byte) (s : Reg8) (st : State) : Out := run 2 2 8 (fun t => t.setReg s (f (t.reg s))) st

/-- The (HL) form of SET and RES (R444). -/
def changeAtHL (f : Byte → Byte) (st : State) : Out :=
  run 2 2 15 (fun t => t.writeByte t.main.hl (f (t.readByte t.main.hl))) st

/-- The (XY+d) form of SET and RES (R444). -/
def changeAtXY (f : Byte → Byte) (i : IndexReg) (d : Byte) (st : State) : Out :=
  runXY i 3 1 19 (fun t => t.writeByte (t.ea i d) (f (t.readByte (t.ea i d)))) st

/-- The (XY+d)->r form of SET and RES (R444). -/
def changeAtXYCopy (f : Byte → Byte) (i : IndexReg) (d : Byte) (s : Reg8) (st : State) : Out :=
  runXY i 3 1 19
    (fun t => (t.writeByte (t.ea i d) (f (t.readByte (t.ea i d)))).setReg s (f (t.readByte (t.ea i d)))) st

/-- `SET b,s` (R456). -/
def execSetR (b : BitVec 3) (s : Reg8) (st : State) : Out := changeReg (setBit b) s st

/-- `SET b,(HL)` (R456). -/
def execSetIndHL (b : BitVec 3) (st : State) : Out := changeAtHL (setBit b) st

/-- `SET b,(XY+d)` (R456). -/
def execSetIndXY (i : IndexReg) (d : Byte) (b : BitVec 3) (st : State) : Out := changeAtXY (setBit b) i d st

/-- `SET b,(XY+d)` with the register copy (R444, R456). -/
def execSetIndXYR (i : IndexReg) (d : Byte) (b : BitVec 3) (s : Reg8) (st : State) : Out :=
  changeAtXYCopy (setBit b) i d s st

/-- `RES b,s` (R457). -/
def execResR (b : BitVec 3) (s : Reg8) (st : State) : Out := changeReg (resetBit b) s st

/-- `RES b,(HL)` (R457). -/
def execResIndHL (b : BitVec 3) (st : State) : Out := changeAtHL (resetBit b) st

/-- `RES b,(XY+d)` (R457). -/
def execResIndXY (i : IndexReg) (d : Byte) (b : BitVec 3) (st : State) : Out := changeAtXY (resetBit b) i d st

/-- `RES b,(XY+d)` with the register copy (R444, R457). -/
def execResIndXYR (i : IndexReg) (d : Byte) (b : BitVec 3) (s : Reg8) (st : State) : Out :=
  changeAtXYCopy (resetBit b) i d s st

end Sys2Proof.Machine
end

