-- ==== Sys2Proof/Machine/PrefixBytes.lean ====
section
/-! DEFINITION. The prefix bytes (30_encoding.md). An index prefix byte is a sub-step of its own (R154). The byte 0xCB
or 0xED is never left alone by the dispatcher: its meaning fetches op2 and runs the map's instruction (R155), written
here on the fields of op2. -/

namespace Sys2Proof.Machine

/-! ### Index prefix bytes -/

/-- An index prefix byte (R153). -/
def execPrefixIndex (i : IndexReg) (st : State) : Out := .next (st.takePrefix i)

/-- An index prefix byte before 0xCB, which then selects the xycb map (R155). -/
def execPrefixCBAfterIndex (i : IndexReg) (st : State) : Out := .next (st.takePrefix i)

/-- An index prefix byte before 0xED: 4 T-states and one R increment, no other effect (R160). -/
def execPrefixEDAfterIndex (i : IndexReg) (st : State) : Out := .next (st.takePrefix i)

/-- An index prefix byte before another one, which is the next sub-step and replaces it (R154). -/
def execPrefixRestart (i _j : IndexReg) (st : State) : Out := .next (st.takePrefix i)

/-- An index prefix byte before a class 4 opcode: 4 T-states and one R increment, no other effect (R160). -/
def execIgnoredIndexPrefix (i : IndexReg) (_w : Byte) (st : State) : Out := .next (st.takePrefix i)

/-! ### The maps 0xCB and 0xED select -/

/-- `CBTable(op2)` (R164). -/
def cbTable (op2 : Byte) (st : State) : Out :=
  let y := fieldY op2
  match (fieldX op2).toNat, Reg8.ofCode (fieldZ op2) with
  | 0, some s => rotateReg (RotOp.ofCode y) s st
  | 0, none => rotateAtHL (RotOp.ofCode y) st
  | 1, some s => execBitR y s st
  | 1, none => execBitIndHL y st
  | 2, some s => execResR y s st
  | 2, none => execResIndHL y st
  | _, some s => execSetR y s st
  | _, none => execSetIndHL y st

/-- `XYCBTable(prefix, d, op2)` (R167). -/
def xycbTable (i : IndexReg) (d op2 : Byte) (st : State) : Out :=
  let y := fieldY op2
  match (fieldX op2).toNat, Reg8.ofCode (fieldZ op2) with
  | 0, some s => rotateAtXYCopy (RotOp.ofCode y) i d s st
  | 0, none => rotateAtXY (RotOp.ofCode y) i d st
  | 1, _ => bitAtXY i d y st
  | 2, some s => execResIndXYR i d y s st
  | 2, none => execResIndXY i d y st
  | _, some s => execSetIndXYR i d y s st
  | _, none => execSetIndXY i d y st

/-- The mode an IM opcode's field y gives (R165). -/
def imMode (y : BitVec 3) : BitVec 2 :=
  match y.toNat with
  | 2 | 6 => 1
  | 3 | 7 => 2
  | _ => 0

/-- ED 40-7F (R165); `nn` is the word after op2. -/
def edTable1 (op2 : Byte) (nn : Word) (st : State) : Out :=
  let y := fieldY op2
  let p := Pair.ofCode (fieldP op2)
  match (fieldZ op2).toNat with
  | 0 => (Reg8.ofCode y).elim (execInFC st) (execInRC · st)
  | 1 => (Reg8.ofCode y).elim (execOutC0 st) (execOutCR · st)
  | 2 => if fieldQ op2 then execAdcHLPair p st else execSbcHLPair p st
  | 3 => if fieldQ op2 then execLdPairMem p nn st else execLdMemPair p nn st
  | 4 => execNeg st
  | 5 => if y = 1 then execReti st else execRetn st
  | 6 => setIM (imMode y) st
  | _ =>
    match y.toNat with
    | 0 => execLdIA st
    | 1 => execLdRA st
    | 2 => execLdAI st
    | 3 => execLdAR st
    | 4 => execRrd st
    | 5 => execRld st
    | _ => execEdHole op2 st

/-- The block instructions of the ED map (R165). -/
def edTable2 (op2 : Byte) (st : State) : Out :=
  match (fieldY op2).toNat, (fieldZ op2).toNat with
  | 4, 0 => execLdi st
  | 4, 1 => execCpi st
  | 4, 2 => execIni st
  | 4, 3 => execOuti st
  | 5, 0 => execLdd st
  | 5, 1 => execCpd st
  | 5, 2 => execInd st
  | 5, 3 => execOutd st
  | 6, 0 => execLdir st
  | 6, 1 => execCpir st
  | 6, 2 => execInir st
  | 6, 3 => execOtir st
  | 7, 0 => execLddr st
  | 7, 1 => execCpdr st
  | 7, 2 => execIndr st
  | 7, 3 => execOtdr st
  | _, _ => execEdHole op2 st

/-- `EDTable(op2)`; every other op2 is a hole (R159, R165). -/
def edTable (op2 : Byte) (nn : Word) (st : State) : Out :=
  match (fieldX op2).toNat with
  | 1 => edTable1 op2 nn st
  | 2 => edTable2 op2 st
  | _ => execEdHole op2 st

/-- 0xCB at PC: without an index prefix op2 is the next byte and the CB map runs it; with one, d and op2 are the next
two bytes and the xycb map runs them (R155). -/
def execPrefixCB (st : State) : Out :=
  match st.pfx with
  | none => cbTable (st.readByte (st.pc + 1)) st
  | some i => xycbTable i (st.readByte (st.pc + 1)) (st.readByte (st.pc + 2)) st

/-- 0xED at PC: op2 is the next byte and the ED map runs it; a prefix has no effect (R155). -/
def execPrefixED (st : State) : Out :=
  edTable (st.readByte (st.pc + 1)) (join (st.readByte (st.pc + 3)) (st.readByte (st.pc + 2))) st

end Sys2Proof.Machine
end

