-- ==== Sys2Proof/Machine/Dispatch.lean ====
section
/-! DEFINITION. One arm per instruction: each calls its meaning. -/

namespace Sys2Proof.Machine

def exec (i : Instr) (s : State) : Host.Outcome State Fault Refusal :=
  match i with
  -- 8-bit loads (41_load8.md)
  | .ldRR r src => Sys2Proof.Machine.execLdRR r src s
  | .ldRN r n => Sys2Proof.Machine.execLdRN r n s
  | .ldRIndHL r => Sys2Proof.Machine.execLdRIndHL r s
  | .ldRIndXY x r d => Sys2Proof.Machine.execLdRIndXY x r d s
  | .ldIndHLR src => Sys2Proof.Machine.execLdIndHLR src s
  | .ldIndXYR x src d => Sys2Proof.Machine.execLdIndXYR x src d s
  | .ldIndHLN n => Sys2Proof.Machine.execLdIndHLN n s
  | .ldIndXYN x d n => Sys2Proof.Machine.execLdIndXYN x d n s
  | .ldAIndBC => Sys2Proof.Machine.execLdAIndBC s
  | .ldAIndDE => Sys2Proof.Machine.execLdAIndDE s
  | .ldAMem nn => Sys2Proof.Machine.execLdAMem nn s
  | .ldIndBCA => Sys2Proof.Machine.execLdIndBCA s
  | .ldIndDEA => Sys2Proof.Machine.execLdIndDEA s
  | .ldMemA nn => Sys2Proof.Machine.execLdMemA nn s
  | .ldAI => Sys2Proof.Machine.execLdAI s
  | .ldAR => Sys2Proof.Machine.execLdAR s
  | .ldIA => Sys2Proof.Machine.execLdIA s
  | .ldRA => Sys2Proof.Machine.execLdRA s
  | .ldRHalf x r h => Sys2Proof.Machine.execLdRHalf x r h s
  | .ldHalfR x h src => Sys2Proof.Machine.execLdHalfR x h src s
  | .ldHalfN x h n => Sys2Proof.Machine.execLdHalfN x h n s
  -- 16-bit loads and the stack (42_load16_stack.md)
  | .ldPairNN p nn => Sys2Proof.Machine.execLdPairNN p nn s
  | .ldXYNN x nn => Sys2Proof.Machine.execLdXYNN x nn s
  | .ldHLMem nn => Sys2Proof.Machine.execLdHLMem nn s
  | .ldPairMem p nn => Sys2Proof.Machine.execLdPairMem p nn s
  | .ldXYMem x nn => Sys2Proof.Machine.execLdXYMem x nn s
  | .ldMemHL nn => Sys2Proof.Machine.execLdMemHL nn s
  | .ldMemPair p nn => Sys2Proof.Machine.execLdMemPair p nn s
  | .ldMemXY x nn => Sys2Proof.Machine.execLdMemXY x nn s
  | .ldSPHL => Sys2Proof.Machine.execLdSPHL s
  | .ldSPXY x => Sys2Proof.Machine.execLdSPXY x s
  | .pushPair q => Sys2Proof.Machine.execPushPair q s
  | .pushXY x => Sys2Proof.Machine.execPushXY x s
  | .popPair q => Sys2Proof.Machine.execPopPair q s
  | .popXY x => Sys2Proof.Machine.execPopXY x s
  -- exchange, block transfer and search (43_exchange_block.md)
  | .exDEHL => Sys2Proof.Machine.execExDEHL s
  | .exAFAF => Sys2Proof.Machine.execExAFAF s
  | .exx => Sys2Proof.Machine.execExx s
  | .exSPHL => Sys2Proof.Machine.execExSPHL s
  | .exSPXY x => Sys2Proof.Machine.execExSPXY x s
  | .ldi => Sys2Proof.Machine.execLdi s
  | .ldir => Sys2Proof.Machine.execLdir s
  | .ldd => Sys2Proof.Machine.execLdd s
  | .lddr => Sys2Proof.Machine.execLddr s
  | .cpi => Sys2Proof.Machine.execCpi s
  | .cpir => Sys2Proof.Machine.execCpir s
  | .cpd => Sys2Proof.Machine.execCpd s
  | .cpdr => Sys2Proof.Machine.execCpdr s
  -- 8-bit arithmetic and logic (44_arith8_logic.md)
  | .addR src => Sys2Proof.Machine.execAddR src s
  | .addN n => Sys2Proof.Machine.execAddN n s
  | .addIndHL => Sys2Proof.Machine.execAddIndHL s
  | .addIndXY x d => Sys2Proof.Machine.execAddIndXY x d s
  | .addHalf x h => Sys2Proof.Machine.execAddHalf x h s
  | .adcR src => Sys2Proof.Machine.execAdcR src s
  | .adcN n => Sys2Proof.Machine.execAdcN n s
  | .adcIndHL => Sys2Proof.Machine.execAdcIndHL s
  | .adcIndXY x d => Sys2Proof.Machine.execAdcIndXY x d s
  | .adcHalf x h => Sys2Proof.Machine.execAdcHalf x h s
  | .subR src => Sys2Proof.Machine.execSubR src s
  | .subN n => Sys2Proof.Machine.execSubN n s
  | .subIndHL => Sys2Proof.Machine.execSubIndHL s
  | .subIndXY x d => Sys2Proof.Machine.execSubIndXY x d s
  | .subHalf x h => Sys2Proof.Machine.execSubHalf x h s
  | .sbcR src => Sys2Proof.Machine.execSbcR src s
  | .sbcN n => Sys2Proof.Machine.execSbcN n s
  | .sbcIndHL => Sys2Proof.Machine.execSbcIndHL s
  | .sbcIndXY x d => Sys2Proof.Machine.execSbcIndXY x d s
  | .sbcHalf x h => Sys2Proof.Machine.execSbcHalf x h s
  | .andR src => Sys2Proof.Machine.execAndR src s
  | .andN n => Sys2Proof.Machine.execAndN n s
  | .andIndHL => Sys2Proof.Machine.execAndIndHL s
  | .andIndXY x d => Sys2Proof.Machine.execAndIndXY x d s
  | .andHalf x h => Sys2Proof.Machine.execAndHalf x h s
  | .xorR src => Sys2Proof.Machine.execXorR src s
  | .xorN n => Sys2Proof.Machine.execXorN n s
  | .xorIndHL => Sys2Proof.Machine.execXorIndHL s
  | .xorIndXY x d => Sys2Proof.Machine.execXorIndXY x d s
  | .xorHalf x h => Sys2Proof.Machine.execXorHalf x h s
  | .orR src => Sys2Proof.Machine.execOrR src s
  | .orN n => Sys2Proof.Machine.execOrN n s
  | .orIndHL => Sys2Proof.Machine.execOrIndHL s
  | .orIndXY x d => Sys2Proof.Machine.execOrIndXY x d s
  | .orHalf x h => Sys2Proof.Machine.execOrHalf x h s
  | .cpR src => Sys2Proof.Machine.execCpR src s
  | .cpN n => Sys2Proof.Machine.execCpN n s
  | .cpIndHL => Sys2Proof.Machine.execCpIndHL s
  | .cpIndXY x d => Sys2Proof.Machine.execCpIndXY x d s
  | .cpHalf x h => Sys2Proof.Machine.execCpHalf x h s
  | .incR r => Sys2Proof.Machine.execIncR r s
  | .incIndHL => Sys2Proof.Machine.execIncIndHL s
  | .incIndXY x d => Sys2Proof.Machine.execIncIndXY x d s
  | .incHalf x h => Sys2Proof.Machine.execIncHalf x h s
  | .decR r => Sys2Proof.Machine.execDecR r s
  | .decIndHL => Sys2Proof.Machine.execDecIndHL s
  | .decIndXY x d => Sys2Proof.Machine.execDecIndXY x d s
  | .decHalf x h => Sys2Proof.Machine.execDecHalf x h s
  -- general-purpose arithmetic and CPU control (45_general_cpu_control.md)
  | .daa => Sys2Proof.Machine.execDaa s
  | .cpl => Sys2Proof.Machine.execCpl s
  | .neg => Sys2Proof.Machine.execNeg s
  | .negDup y => Sys2Proof.Machine.execNegDup y s
  | .ccf => Sys2Proof.Machine.execCcf s
  | .scf => Sys2Proof.Machine.execScf s
  | .nop => Sys2Proof.Machine.execNop s
  | .halt => Sys2Proof.Machine.execHalt s
  | .di => Sys2Proof.Machine.execDi s
  | .ei => Sys2Proof.Machine.execEi s
  | .im0 => Sys2Proof.Machine.execIm0 s
  | .im0Dup y => Sys2Proof.Machine.execIm0Dup y s
  | .im1 => Sys2Proof.Machine.execIm1 s
  | .im1Dup => Sys2Proof.Machine.execIm1Dup s
  | .im2 => Sys2Proof.Machine.execIm2 s
  | .im2Dup => Sys2Proof.Machine.execIm2Dup s
  | .edHole w => Sys2Proof.Machine.execEdHole w s
  -- 16-bit arithmetic (46_arith16.md)
  | .addHLPair p => Sys2Proof.Machine.execAddHLPair p s
  | .adcHLPair p => Sys2Proof.Machine.execAdcHLPair p s
  | .sbcHLPair p => Sys2Proof.Machine.execSbcHLPair p s
  | .addXYPair x p => Sys2Proof.Machine.execAddXYPair x p s
  | .incPair p => Sys2Proof.Machine.execIncPair p s
  | .incXY x => Sys2Proof.Machine.execIncXY x s
  | .decPair p => Sys2Proof.Machine.execDecPair p s
  | .decXY x => Sys2Proof.Machine.execDecXY x s
  -- rotates, shifts and bit operations (47_rotate_shift_bit.md)
  | .rlca => Sys2Proof.Machine.execRlca s
  | .rla => Sys2Proof.Machine.execRla s
  | .rrca => Sys2Proof.Machine.execRrca s
  | .rra => Sys2Proof.Machine.execRra s
  | .rlcR src => Sys2Proof.Machine.execRlcR src s
  | .rlcIndHL => Sys2Proof.Machine.execRlcIndHL s
  | .rlcIndXY x d => Sys2Proof.Machine.execRlcIndXY x d s
  | .rlcIndXYR x d src => Sys2Proof.Machine.execRlcIndXYR x d src s
  | .rrcR src => Sys2Proof.Machine.execRrcR src s
  | .rrcIndHL => Sys2Proof.Machine.execRrcIndHL s
  | .rrcIndXY x d => Sys2Proof.Machine.execRrcIndXY x d s
  | .rrcIndXYR x d src => Sys2Proof.Machine.execRrcIndXYR x d src s
  | .rlR src => Sys2Proof.Machine.execRlR src s
  | .rlIndHL => Sys2Proof.Machine.execRlIndHL s
  | .rlIndXY x d => Sys2Proof.Machine.execRlIndXY x d s
  | .rlIndXYR x d src => Sys2Proof.Machine.execRlIndXYR x d src s
  | .rrR src => Sys2Proof.Machine.execRrR src s
  | .rrIndHL => Sys2Proof.Machine.execRrIndHL s
  | .rrIndXY x d => Sys2Proof.Machine.execRrIndXY x d s
  | .rrIndXYR x d src => Sys2Proof.Machine.execRrIndXYR x d src s
  | .slaR src => Sys2Proof.Machine.execSlaR src s
  | .slaIndHL => Sys2Proof.Machine.execSlaIndHL s
  | .slaIndXY x d => Sys2Proof.Machine.execSlaIndXY x d s
  | .slaIndXYR x d src => Sys2Proof.Machine.execSlaIndXYR x d src s
  | .sraR src => Sys2Proof.Machine.execSraR src s
  | .sraIndHL => Sys2Proof.Machine.execSraIndHL s
  | .sraIndXY x d => Sys2Proof.Machine.execSraIndXY x d s
  | .sraIndXYR x d src => Sys2Proof.Machine.execSraIndXYR x d src s
  | .sllR src => Sys2Proof.Machine.execSllR src s
  | .sllIndHL => Sys2Proof.Machine.execSllIndHL s
  | .sllIndXY x d => Sys2Proof.Machine.execSllIndXY x d s
  | .sllIndXYR x d src => Sys2Proof.Machine.execSllIndXYR x d src s
  | .srlR src => Sys2Proof.Machine.execSrlR src s
  | .srlIndHL => Sys2Proof.Machine.execSrlIndHL s
  | .srlIndXY x d => Sys2Proof.Machine.execSrlIndXY x d s
  | .srlIndXYR x d src => Sys2Proof.Machine.execSrlIndXYR x d src s
  | .rld => Sys2Proof.Machine.execRld s
  | .rrd => Sys2Proof.Machine.execRrd s
  | .bitR b src => Sys2Proof.Machine.execBitR b src s
  | .bitIndHL b => Sys2Proof.Machine.execBitIndHL b s
  | .bitIndXY x d b => Sys2Proof.Machine.execBitIndXY x d b s
  | .bitIndXYDup x d b src => Sys2Proof.Machine.execBitIndXYDup x d b src s
  | .setR b src => Sys2Proof.Machine.execSetR b src s
  | .setIndHL b => Sys2Proof.Machine.execSetIndHL b s
  | .setIndXY x d b => Sys2Proof.Machine.execSetIndXY x d b s
  | .setIndXYR x d b src => Sys2Proof.Machine.execSetIndXYR x d b src s
  | .resR b src => Sys2Proof.Machine.execResR b src s
  | .resIndHL b => Sys2Proof.Machine.execResIndHL b s
  | .resIndXY x d b => Sys2Proof.Machine.execResIndXY x d b s
  | .resIndXYR x d b src => Sys2Proof.Machine.execResIndXYR x d b src s
  -- jumps, calls and returns (48_control_transfer.md)
  | .jp nn => Sys2Proof.Machine.execJp nn s
  | .jpCond cc nn => Sys2Proof.Machine.execJpCond cc nn s
  | .jr e => Sys2Proof.Machine.execJr e s
  | .jrCond cc e => Sys2Proof.Machine.execJrCond cc e s
  | .jpHL => Sys2Proof.Machine.execJpHL s
  | .jpXY x => Sys2Proof.Machine.execJpXY x s
  | .djnz e => Sys2Proof.Machine.execDjnz e s
  | .call nn => Sys2Proof.Machine.execCall nn s
  | .callCond cc nn => Sys2Proof.Machine.execCallCond cc nn s
  | .ret => Sys2Proof.Machine.execRet s
  | .retCond cc => Sys2Proof.Machine.execRetCond cc s
  | .reti => Sys2Proof.Machine.execReti s
  | .retn => Sys2Proof.Machine.execRetn s
  | .retnDup y => Sys2Proof.Machine.execRetnDup y s
  | .rst t => Sys2Proof.Machine.execRst t s
  -- input and output (49_io.md)
  | .inAN n => Sys2Proof.Machine.execInAN n s
  | .inRC r => Sys2Proof.Machine.execInRC r s
  | .inFC => Sys2Proof.Machine.execInFC s
  | .ini => Sys2Proof.Machine.execIni s
  | .inir => Sys2Proof.Machine.execInir s
  | .ind => Sys2Proof.Machine.execInd s
  | .indr => Sys2Proof.Machine.execIndr s
  | .outNA n => Sys2Proof.Machine.execOutNA n s
  | .outCR r => Sys2Proof.Machine.execOutCR r s
  | .outC0 => Sys2Proof.Machine.execOutC0 s
  | .outi => Sys2Proof.Machine.execOuti s
  | .otir => Sys2Proof.Machine.execOtir s
  | .outd => Sys2Proof.Machine.execOutd s
  | .otdr => Sys2Proof.Machine.execOtdr s
  -- prefix bytes (30_encoding.md)
  | .prefixCB => Sys2Proof.Machine.execPrefixCB s
  | .prefixED => Sys2Proof.Machine.execPrefixED s
  | .prefixIndex x => Sys2Proof.Machine.execPrefixIndex x s
  | .prefixCBAfterIndex x => Sys2Proof.Machine.execPrefixCBAfterIndex x s
  | .prefixEDAfterIndex x => Sys2Proof.Machine.execPrefixEDAfterIndex x s
  | .prefixRestart x j => Sys2Proof.Machine.execPrefixRestart x j s
  | .ignoredIndexPrefix x w => Sys2Proof.Machine.execIgnoredIndexPrefix x w s

end Sys2Proof.Machine
end

