-- ==== Sys2Proof/Machine/Fetch.lean ====
section
/-! DEFINITION. Fetching: the instruction at PC, and the state in which a given word is what the next step fetches. -/

namespace Sys2Proof.Machine

/-- What the dispatcher reads at PC under the current prefix (R152, R155). No fetch of an instruction can see a store of
the same instruction, so its bytes are read at once (R134). -/
def State.nextInstr (s : State) : Instr :=
  decodeAt s.pfx (s.readByte s.pc) (s.readByte (s.pc + 1)) (s.readByte (s.pc + 2)) (s.readByte (s.pc + 3))

/-- Puts bytes into the memory image from address `a` on, whatever the write attributes: an initial image, not a store
(R102). -/
def State.pokeBytes (s : State) (a : Word) (bs : List Byte) : State :=
  match bs with
  | [] => s
  | v :: rest => State.pokeBytes (s.pokeByte a v) (a + 1) rest

/-- Whether a word's first byte is an index prefix that belongs to the instruction decoded from it, so that the
dispatcher takes it in a sub-step before that instruction (R154): then the prefix, and the bytes after it. -/
def splitPrefix (bs : List Byte) : Option IndexReg × List Byte :=
  match bs with
  | [] => (none, [])
  | b :: rest =>
    match IndexReg.ofByte b, rest with
    | some i, op :: _ =>
      if op = 0xCB ∧ 2 ≤ rest.length then (some i, rest)
      else if (decodeIndexed i op 0 0).isSome then (some i, rest)
      else (none, bs)
    | _, _ => (none, bs)

/-- The state whose next step fetches the given bytes: they stand at PC, filled up with zeros to four; an instruction
with its own index prefix stands there as after the sub-step that takes the prefix; and the core runs (log 7). -/
def State.withBytes (s : State) (bs : List Byte) : State :=
  let p := splitPrefix bs
  { s.pokeBytes s.pc ((p.2 ++ [0, 0, 0, 0]).take 4) with pfx := p.1, halted := false, run := .running }

end Sys2Proof.Machine
end

