-- ==== Sys2Proof/Machine/Step.lean ====
section
/-! DEFINITION. One transition of the block, and the placing of a word where the next step fetches it. -/

namespace Sys2Proof.Machine

/-- One transition: the host actions that arrive before it, then what the core does next. A dispatch step takes one
transition for each index prefix byte and one for the rest (R154); the boundary actions follow the last of them
(R153, R602). -/
def step (s : State) : Host.Outcome State Fault Refusal :=
  let s := s.takeInbox
  match s.activity with
  | .wait => .next s
  | .idle => .next s.idleCycle
  | .trap k => .next (s.enterTrap k)
  | .execute =>
    match exec s.nextInstr s with
    | .next t => .next t.finish
    | .fault f => .fault f
    | .refused r => .refused r

/-- `s` with the word, numbered as spec/opcode_table.json numbers it, where the next step fetches. -/
def State.withFetchWord (s : State) (nbits w : Nat) : State := s.withBytes (tableBytes nbits w)

end Sys2Proof.Machine
end

