-- ==== Sys2Proof/Safety.lean ====
section
/-! DEFINITION. The terms in which claims are stated: alias classes, the invariant of every state a run can be in, what
an instruction's fetches cost, what a store leaves in memory, and how an instruction completes. -/

namespace Sys2Proof.Machine

/-- The lowest address of the alias class of `a` (R111). -/
def aliasKey (a : Word) : Nat :=
  let n := a.toNat
  if 0x2000 ≤ n ∧ n < 0x3000 then n - n / 0x400 % 2 * 0x400
  else if 0x3000 ≤ n ∧ n < 0x4000 then 0x3000 + n % 0x400
  else n

/-- The mirror invariant: the addresses of one alias class read the same byte (R112). -/
def State.Mirrored (s : State) : Prop := ∀ a b : Word, aliasKey a = aliasKey b → s.readByte a = s.readByte b

/-- The invariant of the machine: memory is in canonical form and mirrored (R112), IM is not 3 (R54), and the budget is
a positive integer (R17). -/
structure State.Inv (s : State) : Prop where
  wf : Memory.wf s.mem
  mirrored : s.Mirrored
  im_ne : s.im ≠ 3
  budget : 0 < s.params.tstatesPerTick

/-- The index register of an instruction's own index prefix, for the instructions an index prefix changes (R157,
R167). -/
def ownIndex : Instr → Option IndexReg
  | .ldRIndXY i _ _ | .ldIndXYR i _ _ | .ldIndXYN i _ _ | .ldRHalf i _ _ | .ldHalfR i _ _ | .ldHalfN i _ _
  | .ldXYNN i _ | .ldXYMem i _ | .ldMemXY i _ | .ldSPXY i | .pushXY i | .popXY i | .exSPXY i | .addIndXY i _
  | .addHalf i _ | .adcIndXY i _ | .adcHalf i _ | .subIndXY i _ | .subHalf i _ | .sbcIndXY i _ | .sbcHalf i _
  | .andIndXY i _ | .andHalf i _ | .xorIndXY i _ | .xorHalf i _ | .orIndXY i _ | .orHalf i _ | .cpIndXY i _
  | .cpHalf i _ | .incIndXY i _ | .incHalf i _ | .decIndXY i _ | .decHalf i _ | .addXYPair i _ | .incXY i
  | .decXY i | .rlcIndXY i _ | .rlcIndXYR i _ _ | .rrcIndXY i _ | .rrcIndXYR i _ _ | .rlIndXY i _
  | .rlIndXYR i _ _ | .rrIndXY i _ | .rrIndXYR i _ _ | .slaIndXY i _ | .slaIndXYR i _ _ | .sraIndXY i _
  | .sraIndXYR i _ _ | .sllIndXY i _ | .sllIndXYR i _ _ | .srlIndXY i _ | .srlIndXYR i _ _ | .bitIndXY i _ _
  | .bitIndXYDup i _ _ _ | .setIndXY i _ _ | .setIndXYR i _ _ _ | .resIndXY i _ _ | .resIndXYR i _ _ _
  | .jpXY i => some i
  | _ => none

/-- Whether an earlier sub-step of the dispatch step took the instruction's own prefix `own` (R154). -/
def State.hasTaken (s : State) (own : Option IndexReg) : Bool := own.isSome && s.pfx == own

/-- The address after an instruction of `len` bytes, its own index prefix counted; PC is past the prefix if it was
taken (R46, R153). -/
def State.after (s : State) (own : Option IndexReg) (len : Word) : Word :=
  if s.hasTaken own then s.pc + (len - 1) else s.pc + len

/-- What an instruction of `m1` opcode fetches and `cost` T-states, its own index prefix counted, leaves in R, in the
cycle counter and in `prefix`. A prefix that was taken has added its 1 and 4 already (R49, R153, R160, R720). -/
structure Costs (own : Option IndexReg) (s t : State) (m1 : Byte) (cost : Count) : Prop where
  r : t.r = if s.hasTaken own then s.r + (m1 - 1) else s.r + m1
  tstates : t.tstates = if s.hasTaken own then s.tstates + (cost - 4) else s.tstates + cost
  pfx : t.pfx = none

/-- `exec i` answers a next state that satisfies `post`, with PC after the instruction's `len` bytes and the given
costs. -/
def Completes (i : Instr) (s : State) (len : Word) (m1 : Byte) (cost : Count) (post : State → Prop) : Prop :=
  ∃ t, exec i s = .next t ∧ t.pc = s.after (ownIndex i) len ∧ Costs (ownIndex i) s t m1 cost ∧ post t

/-- `exec i` answers a next state that satisfies `post`, with PC at `target` and the given costs. -/
def GoesTo (i : Instr) (s : State) (target : Word) (m1 : Byte) (cost : Count) (post : State → Prop) : Prop :=
  ∃ t, exec i s = .next t ∧ t.pc = target ∧ Costs (ownIndex i) s t m1 cost ∧ post t

/-- `t` with the fields every instruction's fetches change put back to those of `s`. -/
def State.unfetched (s t : State) : State :=
  { t with pc := s.pc, r := s.r, tstates := s.tstates, pfx := s.pfx }

/-- `t` with F and the draw counter put back to those of `s`, beside the fields of the fetches. -/
def State.unflagged (s t : State) : State :=
  { s.unfetched t with main := { t.main with f := s.main.f }, draws := s.draws }

/-- The memory of `t` is that of `s` after `MemWrite(a, 1, v)`: every address of the alias class of `a` reads `v` if
its bank is writable, and every other address reads as before (R106, R107). -/
def Stored (s t : State) (a : Word) (v : Byte) : Prop :=
  ∀ b : Word, t.readByte b = if s.writable a ∧ aliasKey b = aliasKey a then v else s.readByte b

/-- What address `b` reads after the byte stores `ps`, made in their order from `s`: the value of the last of them whose
address is an alias of `b` and whose bank is writable, and else what it read before (R106, R107, R641). -/
def State.byteAfter (s : State) (ps : List (Word × Byte)) (b : Word) : Byte :=
  match ps.reverse.find? fun p => decide (aliasKey p.1 = aliasKey b) && s.writable p.1 with
  | some p => p.2
  | none => s.readByte b

/-- The memory of `t` is that of `s` after `MemWrite(a, 2, v)`: the low byte goes to `a` and the high byte to `a + 1`,
each under the attribute of its own bank (R109). -/
def StoredWord (s t : State) (a v : Word) : Prop :=
  ∀ b : Word, t.readByte b =
    if s.writable (a + 1) ∧ aliasKey b = aliasKey (a + 1) then hiByte v
    else if s.writable a ∧ aliasKey b = aliasKey a then loByte v
    else s.readByte b

end Sys2Proof.Machine
end

