-- ==== Sys2Proof/Certificates/Slice0/Obligations.lean ====
section
/-! DEFINITION. The statements for the provers, from the numbered rules of spec/. The first part names what a frame
keeps and writes the spec's flag rules in exact arithmetic. Bits 5 and 3 of F, and every other flag a rule draws, are
free: a statement about an instruction says nothing of them, but for the one about draws. -/

namespace Sys2Proof.Spec

open Sys2Proof.Machine

/-! ### Frames: what an instruction leaves unchanged, beside what its fetches change -/

/-- Only register `r` changes. -/
def OnlyReg (s u : State) (r : Reg8) : Prop :=
  (∀ q, q ≠ r → u.reg q = s.reg q) ∧ u.main.f = s.main.f ∧ { s.unfetched u with main := s.main } = s

/-- Only register `r` and F change, and draws are used up. -/
def OnlyRegAndFlags (s u : State) (r : Reg8) : Prop :=
  (∀ q, q ≠ r → u.reg q = s.reg q) ∧ { s.unflagged u with main := s.main } = s

/-- Only F changes, and draws are used up. -/
def OnlyFlags (s u : State) : Prop := s.unflagged u = s

/-- Only memory changes. -/
def OnlyMem (s u : State) : Prop := { s.unfetched u with mem := s.mem } = s

/-- Only memory and F change, and draws are used up. -/
def OnlyMemAndFlags (s u : State) : Prop := { s.unflagged u with mem := s.mem } = s

/-- Only the index register `x` changes. -/
def OnlyXY (s u : State) (x : IndexReg) : Prop :=
  (∀ y, y ≠ x → u.xy y = s.xy y) ∧ { s.unfetched u with ix := s.ix, iy := s.iy } = s

/-- Only the index register `x` and F change, and draws are used up. -/
def OnlyXYAndFlags (s u : State) (x : IndexReg) : Prop :=
  (∀ y, y ≠ x → u.xy y = s.xy y) ∧ { s.unflagged u with ix := s.ix, iy := s.iy } = s

/-- Only the pair `p` changes. -/
def OnlyPair (s u : State) (p : Pair) : Prop :=
  (∀ q, q ≠ p → u.pair q = s.pair q) ∧ u.main.a = s.main.a ∧ u.main.f = s.main.f ∧
    { s.unfetched u with main := s.main, sp := s.sp } = s

/-- Nothing changes. -/
def Nothing (s u : State) : Prop := s.unfetched u = s

/-! ### Exact arithmetic -/

/-- The number of 1 bits of a byte. -/
def ones (v : Byte) : Nat := (List.range 8).countP fun k => v.getLsbD k

/-- `SZ(v)` (R26). -/
def SignZero (v : Byte) (f : Flags) : Prop := (f.s = true ↔ 128 ≤ v.toNat) ∧ (f.z = true ↔ v = 0)

/-- `SZP(v)` (R26, R65). -/
def SignZeroParity (v : Byte) (f : Flags) : Prop := SignZero v f ∧ (f.pv = true ↔ ones v % 2 = 0)

/-- The flags of `a + b + c` as 8-bit values: carry out of bit 3, signed overflow, carry out of bit 7 (R321). -/
def AddFlags (a b : Byte) (c : Bool) (f : Flags) : Prop :=
  SignZero (BitVec.ofNat 8 (a.toNat + b.toNat + c.toNat)) f ∧
    (f.h = true ↔ 15 < a.toNat % 16 + b.toNat % 16 + c.toNat) ∧
    (f.pv = true ↔ a.toInt + b.toInt + c.toNat < -128 ∨ 127 < a.toInt + b.toInt + c.toNat) ∧
    f.n = false ∧ (f.c = true ↔ 255 < a.toNat + b.toNat + c.toNat)

/-- The flags of `a - b - c` as 8-bit values: borrow into bit 4, signed overflow, borrow (R322). -/
def SubFlags (a b : Byte) (c : Bool) (f : Flags) : Prop :=
  SignZero (BitVec.ofInt 8 ((a.toNat : Int) - b.toNat - c.toNat)) f ∧
    (f.h = true ↔ a.toNat % 16 < b.toNat % 16 + c.toNat) ∧
    (f.pv = true ↔ a.toInt - b.toInt - c.toNat < -128 ∨ 127 < a.toInt - b.toInt - c.toNat) ∧
    f.n = true ∧ (f.c = true ↔ a.toNat < b.toNat + c.toNat)

/-- The flags of AND, XOR and OR from the result (R327, R328, R329). -/
def LogicFlags (v : Byte) (h : Bool) (f : Flags) : Prop :=
  SignZeroParity v f ∧ f.h = h ∧ f.n = false ∧ f.c = false

/-- The result of a rotate or shift of `v`, as a number, with the carry flag `c` before it (R445 to R452). -/
def rotateValue (op : RotOp) (v : Byte) (c : Bool) : Nat :=
  match op with
  | .rlc => 2 * v.toNat % 256 + v.toNat / 128
  | .rrc => v.toNat / 2 + 128 * (v.toNat % 2)
  | .rl => 2 * v.toNat % 256 + c.toNat
  | .rr => v.toNat / 2 + 128 * c.toNat
  | .sla => 2 * v.toNat % 256
  | .sra => v.toNat / 2 + 128 * (v.toNat / 128)
  | .sll => 2 * v.toNat % 256 + 1
  | .srl => v.toNat / 2

/-- The bit a rotate or shift moves into C: bit 7 of the left ones, bit 0 of the right ones (R445 to R452). -/
def rotateCarry (op : RotOp) (v : Byte) : Bool :=
  match op with
  | .rlc | .rl | .sla | .sll => decide (128 ≤ v.toNat)
  | .rrc | .rr | .sra | .srl => decide (v.toNat % 2 = 1)

/-- The flags of a rotate or shift by `op` of `v`. -/
def RotateFlags (op : RotOp) (v : Byte) (s u : State) : Prop :=
  SignZeroParity (BitVec.ofNat 8 (rotateValue op v s.main.f.c)) u.main.f ∧ u.main.f.h = false ∧
    u.main.f.n = false ∧ u.main.f.c = rotateCarry op v

/-- S, Z and P/V are kept. -/
def KeepsSZP (s u : State) : Prop :=
  u.main.f.s = s.main.f.s ∧ u.main.f.z = s.main.f.z ∧ u.main.f.pv = s.main.f.pv

/-- The address one step on from `a`: up, or down for the instructions whose name ends in D or DR. -/
def along (back : Bool) (a : Word) : Word := if back then a - 1 else a + 1

/-- The byte with the two decimal digits of `n`. -/
def bcd (n : Nat) : Byte := BitVec.ofNat 8 (n / 10 * 16 + n % 10)

end Sys2Proof.Spec

open Sys2Proof Sys2Proof.Machine Sys2Proof.Spec

/-! ## Encoding -/

/-- Decoding the encoding of a well-formed instruction gives it back with nothing left, and, for every instruction
but a prefix byte that the end of the list leaves alone, whatever bytes follow. -/
def Obligations.EncodeThenDecode : Prop :=
  ∀ i : Instr, i.wellFormed = true →
    decode (encode i) = .ok i [] ∧
      ((i ≠ .prefixCB ∧ i ≠ .prefixED ∧ (∀ x, i ≠ .prefixIndex x) ∧ ∀ x, i ≠ .prefixCBAfterIndex x) →
        ∀ rest, decode (encode i ++ rest) = .ok i rest)

/-- Every instruction the decoder gives is well formed, and the bytes it was read from are its encoding: no two
encodings share a meaning and none is dropped. -/
def Obligations.DecodedIsItsEncoding : Prop :=
  ∀ bs i rest, decode bs = .ok i rest → i.wellFormed = true ∧ bs = encode i ++ rest

/-- Every sequence of four bytes or more begins with an instruction (R156), which is 1 to 4 bytes long (R150). -/
def Obligations.EveryByteSequenceDecodes : Prop :=
  ∀ bs : List Byte, 4 ≤ bs.length →
    ∃ i n, 1 ≤ n ∧ n ≤ 4 ∧ decode bs = .ok i (bs.drop n)

/-- A few words written out from the encoding tables of R163 to R167. -/
def Obligations.SampleWordsDecode : Prop :=
  decode [0x48] = .ok (.ldRR .c .b) [] ∧
  decode [0x21, 0x34, 0x12] = .ok (.ldPairNN .hl 0x1234) [] ∧
  decode [0xED, 0xB0] = .ok .ldir [] ∧
  decode [0xFE, 0x20] = .ok (.cpN 0x20) [] ∧
  decode [0xED, 0x5E] = .ok .im2 [] ∧
  decode [0xDD, 0x39] = .ok (.addXYPair .ix .sp) [] ∧
  decode [0xDD, 0xCB, 0x01, 0x80] = .ok (.resIndXYR .ix 1 0 .b) [] ∧
  decode [0xE2, 0x00, 0x50] = .ok (.jpCond .po 0x5000) [] ∧
  decode [0xED, 0x78] = .ok (.inRC .a) [] ∧
  decode [0xDD, 0x66, 0xFE] = .ok (.ldRIndXY .ix .h 0xFE) [] ∧
  decode [0xDD, 0xEB] = .ok (.ignoredIndexPrefix .ix 0xEB) [] ∧
  decode [0xED, 0xDD] = .ok (.edHole 0xDD) []

/-- From `s`, the next step runs `exec i` and then the boundary actions; an instruction with an index prefix of its own
takes one step for the prefix byte, which has no boundary, and one for `exec i` (R153, R154). -/
def Sys2Proof.Spec.RunsFrom (s : State) (i : Instr) : Prop :=
  (ownIndex i = none → ∀ u, exec i s = .next u → step s = .next u.finish) ∧
  (∀ x, ownIndex i = some x →
    step s = .next (s.takePrefix x) ∧
      ∀ u, exec i (s.takePrefix x) = .next u → step (s.takePrefix x) = .next u.finish)

/-- What a running, unhalted core with no host action due runs next. At an instruction boundary with no trap, it is the
instruction the bytes at PC decode to. After an index prefix `x`, no trap is tested, and it is the instruction `x` and
the bytes at PC decode to where that instruction has `x` as its own prefix; but where the byte at PC ignores the prefix
(class 4 of R157, or 0xED) or is another index prefix (R154), it is the instruction the bytes at PC decode to without
one. The prefix sub-steps are log 9's. -/
def Obligations.StepRunsDecoded : Prop :=
  ∀ (s : State) (i : Instr) (bs rest : List Byte),
    s.inbox = [] → s.run = .running → s.halted = false →
    bs = [s.readByte s.pc, s.readByte (s.pc + 1), s.readByte (s.pc + 2), s.readByte (s.pc + 3)] →
      (s.pfx = none → s.trapAt = none → decode bs = .ok i rest → RunsFrom s i) ∧
      (∀ x, s.pfx = some x → decode (x.byte :: bs) = .ok i rest → ownIndex i = some x →
        ∀ u, exec i s = .next u → step s = .next u.finish) ∧
      (∀ x, s.pfx = some x →
        isClass4 (s.readByte s.pc) = true ∨ s.readByte s.pc ∈ [(0xED : Byte), 0xDD, 0xFD] →
          decode bs = .ok i rest → RunsFrom s i)

/-! ## Registers and flags -/

/-- The pairs are views of their two registers, high byte first, and the halves of IX and IY are bytes of them. -/
def Obligations.PairsAreViews : Prop :=
  (∀ s : State, (s.pair .bc).toNat = 256 * (s.reg .b).toNat + (s.reg .c).toNat ∧
    (s.pair .de).toNat = 256 * (s.reg .d).toNat + (s.reg .e).toNat ∧
    (s.pair .hl).toNat = 256 * (s.reg .h).toNat + (s.reg .l).toNat ∧
    (s.stackPair .af).toNat = 256 * (s.reg .a).toNat + s.main.f.toByte.toNat) ∧
  (∀ (s : State) (p : Pair) (v : Word), (s.setPair p v).pair p = v ∧ OnlyPair s (s.setPair p v) p) ∧
  (∀ (s : State) (v : Word), (s.setPair .bc v).reg .b = hiByte v ∧ (s.setPair .bc v).reg .c = loByte v ∧
    (s.setPair .de v).reg .d = hiByte v ∧ (s.setPair .de v).reg .e = loByte v ∧
    (s.setPair .hl v).reg .h = hiByte v ∧ (s.setPair .hl v).reg .l = loByte v) ∧
  (∀ v : Word, v.toNat = 256 * (hiByte v).toNat + (loByte v).toNat) ∧
  (∀ (s : State) (x : IndexReg), (s.xy x).toNat = 256 * (s.half x .high).toNat + (s.half x .low).toNat)

/-- The places of the flags in F (R62), the condition codes (R66) and the parity of a byte (R65). -/
def Obligations.FlagBitsConditionsParity : Prop :=
  (∀ f : Flags, f.toByte.toNat = 128 * f.s.toNat + 64 * f.z.toNat + 32 * f.y.toNat + 16 * f.h.toNat +
    8 * f.x.toNat + 4 * f.pv.toNat + 2 * f.n.toNat + f.c.toNat ∧ Flags.ofByte f.toByte = f) ∧
  (∀ f : Flags, f.holds (Cond.ofCode 0) = !f.z ∧ f.holds (Cond.ofCode 1) = f.z ∧ f.holds (Cond.ofCode 2) = !f.c ∧
    f.holds (Cond.ofCode 3) = f.c ∧ f.holds (Cond.ofCode 4) = !f.pv ∧ f.holds (Cond.ofCode 5) = f.pv ∧
    f.holds (Cond.ofCode 6) = !f.s ∧ f.holds (Cond.ofCode 7) = f.s) ∧
  (∀ v : Byte, parity v = true ↔ ones v % 2 = 0)

/-- An instruction that changes F is POP AF or EX AF,AF', which move it whole, or it uses up one draw and leaves bits
of that draw in F[5] and F[3] (R64). The draw counter is the model's (log 1). -/
def Obligations.FlagWritersDraw : Prop :=
  ∀ (i : Instr) (s u : State), exec i s = .next u →
    u.main.f = s.main.f ∨ i = .popPair .af ∨ i = .exAFAF ∨
      (u.draws = s.draws + 1 ∧ u.main.f.y = s.freeByte.getLsbD 5 ∧ u.main.f.x = s.freeByte.getLsbD 3)

/-- Which instructions can change a special register: the shadow set (R41), I (R48), IFF1 and IFF2 (R53), IM (R54) and
`halted` (R71); and none changes the request, the speed, `run`, the parameters or the host actions to come (R77). The
byte 0xED as an instruction runs whatever ED instruction follows it. -/
def Obligations.SpecialRegisterWriters : Prop :=
  ∀ (i : Instr) (s u : State), exec i s = .next u →
    (u.alt = s.alt ∨ i = .exAFAF ∨ i = .exx) ∧
    (u.i = s.i ∨ i = .ldIA ∨ i = .prefixED) ∧
    (u.iff1 = s.iff1 ∨ i = .di ∨ i = .ei ∨ i = .reti ∨ i = .retn ∨ (∃ y, i = .retnDup y) ∨ i = .prefixED) ∧
    (u.iff2 = s.iff2 ∨ i = .di ∨ i = .ei) ∧
    (u.im = s.im ∨ i = .im0 ∨ (∃ y, i = .im0Dup y) ∨ i = .im1 ∨ i = .im1Dup ∨ i = .im2 ∨ i = .im2Dup ∨
      i = .prefixED) ∧
    (u.halted = s.halted ∨ i = .halt) ∧
    u.request = s.request ∧ u.speed = s.speed ∧ u.run = s.run ∧ u.params = s.params ∧ u.inbox = s.inbox

/-! ## Memory -/

/-- A byte store in a read-only bank changes nothing; in a writable bank it writes every address of its alias class, by
the three ranges of R107, and no other address. -/
def Obligations.StoreWritesItsAliases : Prop :=
  (∀ (s : State) (a : Word) (v : Byte), s.writable a = false → s.writeByte a v = s) ∧
  (∀ (s : State) (a : Word) (v : Byte), (a.toNat < 0x2000 ∨ 0x4000 ≤ a.toNat) → s.writable a = true → ∀ b,
    (s.writeByte a v).readByte b = if b = a then v else s.readByte b) ∧
  ∀ (s : State) (k : Word) (v : Byte), s.writable 0x2000 = true → k.toNat < 0x400 →
    (∀ a ∈ [0x2000 + k, 0x2400 + k], ∀ b,
      (s.writeByte a v).readByte b = if b ∈ [0x2000 + k, 0x2400 + k] then v else s.readByte b) ∧
    (∀ a ∈ [0x2800 + k, 0x2C00 + k], ∀ b,
      (s.writeByte a v).readByte b = if b ∈ [0x2800 + k, 0x2C00 + k] then v else s.readByte b) ∧
    (∀ a ∈ [0x3000 + k, 0x3400 + k, 0x3800 + k, 0x3C00 + k], ∀ b, (s.writeByte a v).readByte b =
      if b ∈ [0x3000 + k, 0x3400 + k, 0x3800 + k, 0x3C00 + k] then v else s.readByte b)

/-- Words lie in memory low byte first (R105), and a word store is two byte stores, each under the attribute of its own
bank and with its own mirrors, at `a` and `a + 1` modulo 65536 (R109): a word store whose two banks are writable is read back, and one at 0x1FFF under a read-only bank 0 writes only the high byte, at 0x2000
and its mirror. -/
def Obligations.WordsAreLittleEndian : Prop :=
  (∀ (s : State) (a : Word),
    (s.readWord a).toNat = (s.readByte a).toNat + 256 * (s.readByte (a + 1)).toNat) ∧
  (∀ (s : State) (a v : Word), StoredWord s (s.writeWord a v) a v) ∧
  (∀ (s : State) (a v : Word), s.writable a = true → s.writable (a + 1) = true →
    (s.writeWord a v).readByte a = loByte v ∧ (s.writeWord a v).readByte (a + 1) = hiByte v ∧
      (s.writeWord a v).readWord a = v) ∧
  (∀ (s : State) (v : Word), s.writable 0x1FFF = false → s.writable 0x2000 = true → ∀ b,
    (s.writeWord 0x1FFF v).readByte b = if b = 0x2000 ∨ b = 0x2400 then hiByte v else s.readByte b)

/-- No step changes a byte of a read-only bank, whatever the source of the store: an instruction, a push, an interrupt's
push or the tape routine (R113). -/
def Obligations.ReadOnlyBanksNeverChange : Prop :=
  ∀ (s u : State) (a : Word), step s = .next u → s.writable a = false → u.readByte a = s.readByte a

/-- Every step keeps the invariant: memory stays in canonical form and mirrored (R112), IM stays 0, 1 or 2 (R54), and
the budget stays positive (R17). -/
def Obligations.StepKeepsInvariant : Prop :=
  ∀ s u : State, s.Inv → step s = .next u → u.Inv

/-- The invariant holds after reset. -/
def Obligations.ResetHasInvariant : Prop := State.reset.Inv

/-- No step changes a parameter, so an address keeps its write attribute (R17, R101). -/
def Obligations.ParametersAreFixed : Prop :=
  ∀ s u : State, step s = .next u → u.params = s.params ∧ ∀ a, u.writable a = s.writable a

/-- Every step and every instruction answers a next state: the core has no fault (R25, R600). MODEL'S CHOICES: a
suspended or trap-waiting core, of which R650 and R641 say that it takes no step, answers next as well (log 5), and no
instruction is refused (log 11). -/
def Obligations.EveryStepAnswersNext : Prop :=
  (∀ s : State, ∃ u, step s = .next u) ∧ ∀ (i : Instr) (s : State), ∃ u, exec i s = .next u

/-! ## 8-bit loads -/

/-- The loads of one byte into a plain register: the value, and nothing else changes. -/
def Obligations.ByteLoadsIntoRegisters : Prop :=
  (∀ s r q, Completes (.ldRR r q) s 1 1 4 fun u => u.reg r = s.reg q ∧ OnlyReg s u r) ∧
  (∀ s r n, Completes (.ldRN r n) s 2 1 7 fun u => u.reg r = n ∧ OnlyReg s u r) ∧
  (∀ s r, Completes (.ldRIndHL r) s 1 1 7 fun u => u.reg r = s.readByte (s.pair .hl) ∧ OnlyReg s u r) ∧
  (∀ s x r d, Completes (.ldRIndXY x r d) s 3 2 19 fun u => u.reg r = s.readByte (s.ea x d) ∧ OnlyReg s u r) ∧
  (∀ s, Completes .ldAIndBC s 1 1 7 fun u => u.reg .a = s.readByte (s.pair .bc) ∧ OnlyReg s u .a) ∧
  (∀ s, Completes .ldAIndDE s 1 1 7 fun u => u.reg .a = s.readByte (s.pair .de) ∧ OnlyReg s u .a) ∧
  (∀ s nn, Completes (.ldAMem nn) s 3 1 13 fun u => u.reg .a = s.readByte nn ∧ OnlyReg s u .a)

/-- The stores of one byte: the alias class of the address takes the value if its bank is writable, and no other byte,
no register and no flag changes. -/
def Obligations.ByteStoresFromRegisters : Prop :=
  (∀ s q, Completes (.ldIndHLR q) s 1 1 7 fun u => Stored s u (s.pair .hl) (s.reg q) ∧ OnlyMem s u) ∧
  (∀ s x q d, Completes (.ldIndXYR x q d) s 3 2 19 fun u => Stored s u (s.ea x d) (s.reg q) ∧ OnlyMem s u) ∧
  (∀ s n, Completes (.ldIndHLN n) s 2 1 10 fun u => Stored s u (s.pair .hl) n ∧ OnlyMem s u) ∧
  (∀ s x d n, Completes (.ldIndXYN x d n) s 4 2 19 fun u => Stored s u (s.ea x d) n ∧ OnlyMem s u) ∧
  (∀ s, Completes .ldIndBCA s 1 1 7 fun u => Stored s u (s.pair .bc) (s.reg .a) ∧ OnlyMem s u) ∧
  (∀ s, Completes .ldIndDEA s 1 1 7 fun u => Stored s u (s.pair .de) (s.reg .a) ∧ OnlyMem s u) ∧
  (∀ s nn, Completes (.ldMemA nn) s 3 1 13 fun u => Stored s u nn (s.reg .a) ∧ OnlyMem s u)

/-- The effective address of an indexed operand: the index register plus the displacement as a signed byte, modulo
65536. -/
def Obligations.IndexedAddressWraps : Prop :=
  ∀ (s : State) (x : IndexReg) (d : Byte), ((s.ea x d).toNat : Int) = (((s.xy x).toNat : Int) + d.toInt) % 65536

/-- The loads that name a half of an index register: the half or the register takes the value, and nothing else
changes. -/
def Obligations.IndexHalfLoads : Prop :=
  (∀ s x r h, Completes (.ldRHalf x r h) s 2 2 8 fun u => u.reg r = s.half x h ∧ OnlyReg s u r) ∧
  (∀ s x h q, Completes (.ldHalfR x h q) s 2 2 8 fun u =>
    u.half x h = (if q = .h then s.half x .high else if q = .l then s.half x .low else s.reg q) ∧
      (∀ k, k ≠ h → u.half x k = s.half x k) ∧ OnlyXY s u x) ∧
  (∀ s x h n, Completes (.ldHalfN x h n) s 3 2 11 fun u =>
    u.half x h = n ∧ (∀ k, k ≠ h → u.half x k = s.half x k) ∧ OnlyXY s u x)

/-- The loads of and from I and R: LD A,I and LD A,R set S and Z from the value, P/V from IFF2, clear H and N and keep
C; R is read after both increments, and LD R,A sets R after them. -/
def Obligations.SpecialRegisterLoads : Prop :=
  (∀ s, Completes .ldAI s 2 2 9 fun u =>
    u.reg .a = s.i ∧ SignZero s.i u.main.f ∧ u.main.f.h = false ∧ u.main.f.pv = s.iff2 ∧ u.main.f.n = false ∧
      u.main.f.c = s.main.f.c ∧ OnlyRegAndFlags s u .a) ∧
  (∀ s, Completes .ldAR s 2 2 9 fun u =>
    u.reg .a = s.r + 2 ∧ SignZero (s.r + 2) u.main.f ∧ u.main.f.h = false ∧ u.main.f.pv = s.iff2 ∧
      u.main.f.n = false ∧ u.main.f.c = s.main.f.c ∧ OnlyRegAndFlags s u .a) ∧
  (∀ s, Completes .ldIA s 2 2 9 fun u => u.i = s.reg .a ∧ { s.unfetched u with i := s.i } = s) ∧
  (∀ s, ∃ u, exec .ldRA s = .next u ∧ u.pc = s.pc + 2 ∧ u.tstates = s.tstates + 9 ∧ u.pfx = none ∧
    u.r = s.reg .a ∧ Nothing s u)

/-! ## 16-bit loads and the stack -/

/-- The loads of a word into a pair, an index register or SP, from an immediate, from memory, or from HL or XY. -/
def Obligations.WordLoadsIntoPairs : Prop :=
  (∀ s p nn, Completes (.ldPairNN p nn) s 3 1 10 fun u => u.pair p = nn ∧ OnlyPair s u p) ∧
  (∀ s x nn, Completes (.ldXYNN x nn) s 4 2 14 fun u => u.xy x = nn ∧ OnlyXY s u x) ∧
  (∀ s nn, Completes (.ldHLMem nn) s 3 1 16 fun u => u.pair .hl = s.readWord nn ∧ OnlyPair s u .hl) ∧
  (∀ s p nn, Completes (.ldPairMem p nn) s 4 2 20 fun u => u.pair p = s.readWord nn ∧ OnlyPair s u p) ∧
  (∀ s x nn, Completes (.ldXYMem x nn) s 4 2 20 fun u => u.xy x = s.readWord nn ∧ OnlyXY s u x) ∧
  (∀ s, Completes .ldSPHL s 1 1 6 fun u => u.sp = s.pair .hl ∧ OnlyPair s u .sp) ∧
  (∀ s x, Completes (.ldSPXY x) s 2 2 10 fun u => u.sp = s.xy x ∧ OnlyPair s u .sp)

/-- The stores of a word at nn: two byte stores, low byte at nn, and nothing else changes. -/
def Obligations.WordStoresToMemory : Prop :=
  (∀ s nn, Completes (.ldMemHL nn) s 3 1 16 fun u => StoredWord s u nn (s.pair .hl) ∧ OnlyMem s u) ∧
  (∀ s p nn, Completes (.ldMemPair p nn) s 4 2 20 fun u => StoredWord s u nn (s.pair p) ∧ OnlyMem s u) ∧
  (∀ s x nn, Completes (.ldMemXY x nn) s 4 2 20 fun u => StoredWord s u nn (s.xy x) ∧ OnlyMem s u)

/-- PUSH moves SP down by 2 and stores the word at the new SP; POP reads the word at SP and moves SP up by 2. POP AF
takes all eight bits of F. -/
def Obligations.PushAndPop : Prop :=
  (∀ s q, Completes (.pushPair q) s 1 1 11 fun u =>
    StoredWord s u (s.sp - 2) (s.stackPair q) ∧ u.sp = s.sp - 2 ∧
      { s.unfetched u with mem := s.mem, sp := s.sp } = s) ∧
  (∀ s x, Completes (.pushXY x) s 2 2 15 fun u =>
    StoredWord s u (s.sp - 2) (s.xy x) ∧ u.sp = s.sp - 2 ∧ { s.unfetched u with mem := s.mem, sp := s.sp } = s) ∧
  (∀ s q, Completes (.popPair q) s 1 1 10 fun u =>
    u.stackPair q = s.readWord s.sp ∧ u.sp = s.sp + 2 ∧ (∀ k, k ≠ q → u.stackPair k = s.stackPair k) ∧
      { s.unfetched u with main := s.main, sp := s.sp } = s) ∧
  (∀ s x, Completes (.popXY x) s 2 2 14 fun u =>
    u.xy x = s.readWord s.sp ∧ u.sp = s.sp + 2 ∧ (∀ y, y ≠ x → u.xy y = s.xy y) ∧
      { s.unfetched u with ix := s.ix, iy := s.iy, sp := s.sp } = s)

/-! ## Exchange, block transfer and search -/

/-- EX DE,HL swaps the two pairs; EX AF,AF' swaps A and F with their shadows; EXX swaps B to L with theirs;
EX (SP),HL and EX (SP),XY swap the word at SP with the register, and SP stays. -/
def Obligations.Exchanges : Prop :=
  (∀ s, Completes .exDEHL s 1 1 4 fun u =>
    u.pair .de = s.pair .hl ∧ u.pair .hl = s.pair .de ∧ u.pair .bc = s.pair .bc ∧ u.main.a = s.main.a ∧
      u.main.f = s.main.f ∧ { s.unfetched u with main := s.main } = s) ∧
  (∀ s, Completes .exAFAF s 1 1 4 fun u =>
    u.main.a = s.alt.a ∧ u.main.f = s.alt.f ∧ u.alt.a = s.main.a ∧ u.alt.f = s.main.f ∧
      (∀ r, r ≠ .a → u.main.get r = s.main.get r ∧ u.alt.get r = s.alt.get r) ∧
      { s.unfetched u with main := s.main, alt := s.alt } = s) ∧
  (∀ s, Completes .exx s 1 1 4 fun u =>
    (∀ r, r ≠ .a → u.main.get r = s.alt.get r ∧ u.alt.get r = s.main.get r) ∧
      u.main.a = s.main.a ∧ u.main.f = s.main.f ∧ u.alt.a = s.alt.a ∧ u.alt.f = s.alt.f ∧
      { s.unfetched u with main := s.main, alt := s.alt } = s) ∧
  (∀ s, Completes .exSPHL s 1 1 19 fun u =>
    u.pair .hl = s.readWord s.sp ∧ StoredWord s u s.sp (s.pair .hl) ∧ (∀ p, p ≠ .hl → u.pair p = s.pair p) ∧
      u.main.a = s.main.a ∧ u.main.f = s.main.f ∧ { s.unfetched u with main := s.main, mem := s.mem } = s) ∧
  (∀ s x, Completes (.exSPXY x) s 2 2 23 fun u =>
    u.xy x = s.readWord s.sp ∧ StoredWord s u s.sp (s.xy x) ∧ (∀ y, y ≠ x → u.xy y = s.xy y) ∧
      { s.unfetched u with ix := s.ix, iy := s.iy, mem := s.mem } = s)

/-- What LDI (`back` = false) and LDD (`back` = true) leave. -/
def Sys2Proof.Spec.Moved (back : Bool) (s u : State) : Prop :=
  Stored s u (s.pair .de) (s.readByte (s.pair .hl)) ∧ u.pair .hl = along back (s.pair .hl) ∧
    u.pair .de = along back (s.pair .de) ∧ u.pair .bc = s.pair .bc - 1 ∧ u.main.a = s.main.a ∧
    u.main.f.h = false ∧ u.main.f.n = false ∧ (u.main.f.pv = true ↔ u.pair .bc ≠ 0) ∧
    u.main.f.s = s.main.f.s ∧ u.main.f.z = s.main.f.z ∧ u.main.f.c = s.main.f.c ∧
    { s.unflagged u with main := s.main, mem := s.mem } = s

/-- LDI and LDD copy one byte; LDIR and LDDR do one iteration, and while BC is not 0 leave PC at their first byte and
cost 21 T-states, else 16 (R285). -/
def Obligations.BlockTransfers : Prop :=
  (∀ s, Completes .ldi s 2 2 16 (Moved false s)) ∧
  (∀ s, Completes .ldd s 2 2 16 (Moved true s)) ∧
  (∀ s, s.pair .bc = 1 → Completes .ldir s 2 2 16 (Moved false s) ∧ Completes .lddr s 2 2 16 (Moved true s)) ∧
  (∀ s, s.pair .bc ≠ 1 → GoesTo .ldir s s.pc 2 21 (Moved false s) ∧ GoesTo .lddr s s.pc 2 21 (Moved true s))

/-- What CPI (`back` = false) and CPD (`back` = true) leave: A is compared, not changed, and C is kept. -/
def Sys2Proof.Spec.Searched (back : Bool) (s u : State) : Prop :=
  u.pair .hl = along back (s.pair .hl) ∧ u.pair .bc = s.pair .bc - 1 ∧ u.pair .de = s.pair .de ∧
    u.main.a = s.main.a ∧ SignZero (s.main.a - s.readByte (s.pair .hl)) u.main.f ∧
    (u.main.f.h = true ↔ s.main.a.toNat % 16 < (s.readByte (s.pair .hl)).toNat % 16) ∧
    (u.main.f.pv = true ↔ u.pair .bc ≠ 0) ∧ u.main.f.n = true ∧ u.main.f.c = s.main.f.c ∧
    { s.unflagged u with main := s.main } = s

/-- CPI and CPD compare one byte; CPIR and CPDR do one iteration, and repeat while BC is not 0 and the byte differs
from A. -/
def Obligations.BlockSearches : Prop :=
  (∀ s, Completes .cpi s 2 2 16 (Searched false s)) ∧
  (∀ s, Completes .cpd s 2 2 16 (Searched true s)) ∧
  (∀ s, s.pair .bc = 1 ∨ s.main.a = s.readByte (s.pair .hl) →
    Completes .cpir s 2 2 16 (Searched false s) ∧ Completes .cpdr s 2 2 16 (Searched true s)) ∧
  (∀ s, s.pair .bc ≠ 1 → s.main.a ≠ s.readByte (s.pair .hl) →
    GoesTo .cpir s s.pc 2 21 (Searched false s) ∧ GoesTo .cpdr s s.pc 2 21 (Searched true s))

/-! ## 8-bit arithmetic and logic -/

/-- A and F after `A + v + c`. -/
def Sys2Proof.Spec.Added (v : Byte) (c : Bool) (s u : State) : Prop :=
  u.main.a = BitVec.ofNat 8 (s.main.a.toNat + v.toNat + c.toNat) ∧ AddFlags s.main.a v c u.main.f ∧
    OnlyRegAndFlags s u .a

/-- A and F after `A - v - c`. -/
def Sys2Proof.Spec.Subtracted (v : Byte) (c : Bool) (s u : State) : Prop :=
  u.main.a = BitVec.ofInt 8 ((s.main.a.toNat : Int) - v.toNat - c.toNat) ∧ SubFlags s.main.a v c u.main.f ∧
    OnlyRegAndFlags s u .a

/-- A and F after a logic operation that gives `v`. -/
def Sys2Proof.Spec.Combined (v : Byte) (h : Bool) (s u : State) : Prop :=
  u.main.a = v ∧ LogicFlags v h u.main.f ∧ OnlyRegAndFlags s u .a

/-- ADD and ADC in their five operand forms (R320). -/
def Obligations.ByteAdditions : Prop :=
  (∀ s q, Completes (.addR q) s 1 1 4 (Added (s.reg q) false s) ∧
    Completes (.adcR q) s 1 1 4 (Added (s.reg q) s.main.f.c s)) ∧
  (∀ s n, Completes (.addN n) s 2 1 7 (Added n false s) ∧ Completes (.adcN n) s 2 1 7 (Added n s.main.f.c s)) ∧
  (∀ s, Completes .addIndHL s 1 1 7 (Added (s.readByte (s.pair .hl)) false s) ∧
    Completes .adcIndHL s 1 1 7 (Added (s.readByte (s.pair .hl)) s.main.f.c s)) ∧
  (∀ s x d, Completes (.addIndXY x d) s 3 2 19 (Added (s.readByte (s.ea x d)) false s) ∧
    Completes (.adcIndXY x d) s 3 2 19 (Added (s.readByte (s.ea x d)) s.main.f.c s)) ∧
  (∀ s x h, Completes (.addHalf x h) s 2 2 8 (Added (s.half x h) false s) ∧
    Completes (.adcHalf x h) s 2 2 8 (Added (s.half x h) s.main.f.c s))

/-- SUB, SBC and CP in their five operand forms; CP leaves A and sets the flags of SUB. -/
def Obligations.ByteSubtractions : Prop :=
  (∀ s q, Completes (.subR q) s 1 1 4 (Subtracted (s.reg q) false s) ∧
    Completes (.sbcR q) s 1 1 4 (Subtracted (s.reg q) s.main.f.c s) ∧
    Completes (.cpR q) s 1 1 4 fun u => SubFlags s.main.a (s.reg q) false u.main.f ∧ OnlyFlags s u) ∧
  (∀ s n, Completes (.subN n) s 2 1 7 (Subtracted n false s) ∧
    Completes (.sbcN n) s 2 1 7 (Subtracted n s.main.f.c s) ∧
    Completes (.cpN n) s 2 1 7 fun u => SubFlags s.main.a n false u.main.f ∧ OnlyFlags s u) ∧
  (∀ s, Completes .subIndHL s 1 1 7 (Subtracted (s.readByte (s.pair .hl)) false s) ∧
    Completes .sbcIndHL s 1 1 7 (Subtracted (s.readByte (s.pair .hl)) s.main.f.c s) ∧
    Completes .cpIndHL s 1 1 7 fun u =>
      SubFlags s.main.a (s.readByte (s.pair .hl)) false u.main.f ∧ OnlyFlags s u) ∧
  (∀ s x d, Completes (.subIndXY x d) s 3 2 19 (Subtracted (s.readByte (s.ea x d)) false s) ∧
    Completes (.sbcIndXY x d) s 3 2 19 (Subtracted (s.readByte (s.ea x d)) s.main.f.c s) ∧
    Completes (.cpIndXY x d) s 3 2 19 fun u =>
      SubFlags s.main.a (s.readByte (s.ea x d)) false u.main.f ∧ OnlyFlags s u) ∧
  (∀ s x h, Completes (.subHalf x h) s 2 2 8 (Subtracted (s.half x h) false s) ∧
    Completes (.sbcHalf x h) s 2 2 8 (Subtracted (s.half x h) s.main.f.c s) ∧
    Completes (.cpHalf x h) s 2 2 8 fun u => SubFlags s.main.a (s.half x h) false u.main.f ∧ OnlyFlags s u)

/-- AND, XOR and OR in their five operand forms; only AND sets H. -/
def Obligations.ByteLogic : Prop :=
  (∀ s q, Completes (.andR q) s 1 1 4 (Combined (s.main.a &&& s.reg q) true s) ∧
    Completes (.xorR q) s 1 1 4 (Combined (s.main.a ^^^ s.reg q) false s) ∧
    Completes (.orR q) s 1 1 4 (Combined (s.main.a ||| s.reg q) false s)) ∧
  (∀ s n, Completes (.andN n) s 2 1 7 (Combined (s.main.a &&& n) true s) ∧
    Completes (.xorN n) s 2 1 7 (Combined (s.main.a ^^^ n) false s) ∧
    Completes (.orN n) s 2 1 7 (Combined (s.main.a ||| n) false s)) ∧
  (∀ s, Completes .andIndHL s 1 1 7 (Combined (s.main.a &&& s.readByte (s.pair .hl)) true s) ∧
    Completes .xorIndHL s 1 1 7 (Combined (s.main.a ^^^ s.readByte (s.pair .hl)) false s) ∧
    Completes .orIndHL s 1 1 7 (Combined (s.main.a ||| s.readByte (s.pair .hl)) false s)) ∧
  (∀ s x d, Completes (.andIndXY x d) s 3 2 19 (Combined (s.main.a &&& s.readByte (s.ea x d)) true s) ∧
    Completes (.xorIndXY x d) s 3 2 19 (Combined (s.main.a ^^^ s.readByte (s.ea x d)) false s) ∧
    Completes (.orIndXY x d) s 3 2 19 (Combined (s.main.a ||| s.readByte (s.ea x d)) false s)) ∧
  (∀ s x h, Completes (.andHalf x h) s 2 2 8 (Combined (s.main.a &&& s.half x h) true s) ∧
    Completes (.xorHalf x h) s 2 2 8 (Combined (s.main.a ^^^ s.half x h) false s) ∧
    Completes (.orHalf x h) s 2 2 8 (Combined (s.main.a ||| s.half x h) false s))

/-- The flags of INC of `v`; C is kept (R331). -/
def Sys2Proof.Spec.IncFlags (v : Byte) (s u : State) : Prop :=
  SignZero (v + 1) u.main.f ∧ (u.main.f.h = true ↔ v.toNat % 16 = 15) ∧ (u.main.f.pv = true ↔ v.toInt = 127) ∧
    u.main.f.n = false ∧ u.main.f.c = s.main.f.c

/-- The flags of DEC of `v`; C is kept (R334). -/
def Sys2Proof.Spec.DecFlags (v : Byte) (s u : State) : Prop :=
  SignZero (v - 1) u.main.f ∧ (u.main.f.h = true ↔ v.toNat % 16 = 0) ∧ (u.main.f.pv = true ↔ v.toInt = -128) ∧
    u.main.f.n = true ∧ u.main.f.c = s.main.f.c

/-- 8-bit INC and DEC in their four operand forms. In a read-only bank memory keeps the byte, and the flags still come
from the byte read. -/
def Obligations.ByteIncrementsAndDecrements : Prop :=
  (∀ s r, Completes (.incR r) s 1 1 4 fun u =>
      u.reg r = s.reg r + 1 ∧ IncFlags (s.reg r) s u ∧ OnlyRegAndFlags s u r) ∧
  (∀ s, Completes .incIndHL s 1 1 11 fun u =>
      Stored s u (s.pair .hl) (s.readByte (s.pair .hl) + 1) ∧ IncFlags (s.readByte (s.pair .hl)) s u ∧
        OnlyMemAndFlags s u) ∧
  (∀ s x d, Completes (.incIndXY x d) s 3 2 23 fun u =>
      Stored s u (s.ea x d) (s.readByte (s.ea x d) + 1) ∧ IncFlags (s.readByte (s.ea x d)) s u ∧
        OnlyMemAndFlags s u) ∧
  (∀ s x h, Completes (.incHalf x h) s 2 2 8 fun u =>
      u.half x h = s.half x h + 1 ∧ (∀ k, k ≠ h → u.half x k = s.half x k) ∧ IncFlags (s.half x h) s u ∧
        OnlyXYAndFlags s u x) ∧
  (∀ s r, Completes (.decR r) s 1 1 4 fun u =>
      u.reg r = s.reg r - 1 ∧ DecFlags (s.reg r) s u ∧ OnlyRegAndFlags s u r) ∧
  (∀ s, Completes .decIndHL s 1 1 11 fun u =>
      Stored s u (s.pair .hl) (s.readByte (s.pair .hl) - 1) ∧ DecFlags (s.readByte (s.pair .hl)) s u ∧
        OnlyMemAndFlags s u) ∧
  (∀ s x d, Completes (.decIndXY x d) s 3 2 23 fun u =>
      Stored s u (s.ea x d) (s.readByte (s.ea x d) - 1) ∧ DecFlags (s.readByte (s.ea x d)) s u ∧
        OnlyMemAndFlags s u) ∧
  (∀ s x h, Completes (.decHalf x h) s 2 2 8 fun u =>
      u.half x h = s.half x h - 1 ∧ (∀ k, k ≠ h → u.half x k = s.half x k) ∧ DecFlags (s.half x h) s u ∧
        OnlyXYAndFlags s u x)

/-! ## General-purpose arithmetic and CPU control -/

/-- DAA: the correction is 0x06 where H is set or the low digit is above 9, and 0x60 where C is set or A is above 0x99;
it is added after an addition and subtracted after a subtraction, N is kept, and C is set where 0x60 was used. -/
def Obligations.DecimalAdjust : Prop :=
  ∀ s, Completes .daa s 1 1 4 fun u =>
    (let a := s.main.a.toNat
     let f := s.main.f
     let high := f.c || decide (a > 0x99)
     let corr := (if f.h = true ∨ a % 16 > 9 then 0x06 else 0) + if high then 0x60 else 0
     u.main.a.toNat = (if f.n then a + 256 - corr else a + corr) % 256 ∧
       (u.main.f.h = true ↔ if f.n then f.h = true ∧ a % 16 < 6 else a % 16 > 9) ∧ u.main.f.c = high ∧
       u.main.f.n = f.n) ∧
      SignZeroParity u.main.a u.main.f ∧ OnlyRegAndFlags s u .a

/-- ADD A,n and then DAA add decimal digits: from A = the digits of `m`, the result is the digits of `m + n` modulo
100, and C says whether 100 was reached. -/
def Obligations.DecimalAddition : Prop :=
  ∀ (s : State) (m n : Nat), m < 100 → n < 100 → s.main.a = bcd m →
    ∃ t u, exec (.addN (bcd n)) s = .next t ∧ exec .daa t = .next u ∧
      u.main.a = bcd ((m + n) % 100) ∧ (u.main.f.c = true ↔ 100 ≤ m + n)

/-- CPL, NEG and its duplicates, CCF and SCF. -/
def Obligations.AccumulatorAndCarryOperations : Prop :=
  (∀ s, Completes .cpl s 1 1 4 fun u =>
    (∀ k < 8, u.main.a.getLsbD k = !s.main.a.getLsbD k) ∧ u.main.f.h = true ∧ u.main.f.n = true ∧ KeepsSZP s u ∧
      u.main.f.c = s.main.f.c ∧ OnlyRegAndFlags s u .a) ∧
  (∀ s, Completes .neg s 2 2 8 fun u =>
    u.main.a = 0 - s.main.a ∧ SubFlags 0 s.main.a false u.main.f ∧ OnlyRegAndFlags s u .a) ∧
  (∀ s y, Completes (.negDup y) s 2 2 8 fun u =>
    u.main.a = 0 - s.main.a ∧ SubFlags 0 s.main.a false u.main.f ∧ OnlyRegAndFlags s u .a) ∧
  (∀ s, Completes .ccf s 1 1 4 fun u =>
    u.main.f.h = s.main.f.c ∧ (u.main.f.c = !s.main.f.c) ∧ u.main.f.n = false ∧ KeepsSZP s u ∧ OnlyFlags s u) ∧
  (∀ s, Completes .scf s 1 1 4 fun u =>
    u.main.f.c = true ∧ u.main.f.h = false ∧ u.main.f.n = false ∧ KeepsSZP s u ∧ OnlyFlags s u)

/-- NOP and the ED holes change nothing but PC, R and the cycle counter; DI, EI and IM write only their fields, the
duplicates of IM too. -/
def Obligations.ControlInstructions : Prop :=
  (∀ s, Completes .nop s 1 1 4 (Nothing s)) ∧
  (∀ s w, Completes (.edHole w) s 2 2 8 (Nothing s)) ∧
  (∀ s, Completes .di s 1 1 4 fun u =>
    u.iff1 = false ∧ u.iff2 = false ∧ { s.unfetched u with iff1 := s.iff1, iff2 := s.iff2 } = s) ∧
  (∀ s, Completes .ei s 1 1 4 fun u =>
    u.iff1 = true ∧ u.iff2 = true ∧ { s.unfetched u with iff1 := s.iff1, iff2 := s.iff2 } = s) ∧
  (∀ s y, Completes .im0 s 2 2 8 (fun u => u.im = 0 ∧ { s.unfetched u with im := s.im } = s) ∧
    Completes (.im0Dup y) s 2 2 8 (fun u => u.im = 0 ∧ { s.unfetched u with im := s.im } = s)) ∧
  (∀ s, Completes .im1 s 2 2 8 (fun u => u.im = 1 ∧ { s.unfetched u with im := s.im } = s) ∧
    Completes .im1Dup s 2 2 8 (fun u => u.im = 1 ∧ { s.unfetched u with im := s.im } = s)) ∧
  (∀ s, Completes .im2 s 2 2 8 (fun u => u.im = 2 ∧ { s.unfetched u with im := s.im } = s) ∧
    Completes .im2Dup s 2 2 8 (fun u => u.im = 2 ∧ { s.unfetched u with im := s.im } = s))

/-! ## 16-bit arithmetic -/

/-- The sum and flags of a 16-bit ADD: H is the carry out of bit 11, and S, Z and P/V are kept (R400, R403). -/
def Sys2Proof.Spec.WordAdded (a b r : Word) (s u : State) : Prop :=
  r.toNat = (a.toNat + b.toNat) % 65536 ∧ (u.main.f.h = true ↔ 4095 < a.toNat % 4096 + b.toNat % 4096) ∧
    u.main.f.n = false ∧ (u.main.f.c = true ↔ 65535 < a.toNat + b.toNat) ∧ KeepsSZP s u

/-- The flags every 16-bit ADC and SBC sets from its result `r` and its exact signed value `e`. -/
def Sys2Proof.Spec.WordSigned (r : Word) (e : Int) (f : Flags) : Prop :=
  (f.s = true ↔ 32768 ≤ r.toNat) ∧ (f.z = true ↔ r = 0) ∧ (f.pv = true ↔ e < -32768 ∨ 32767 < e)

/-- Only HL and F change, and draws are used up. -/
def Sys2Proof.Spec.OnlyHLAndFlags (s u : State) : Prop :=
  u.pair .bc = s.pair .bc ∧ u.pair .de = s.pair .de ∧ u.main.a = s.main.a ∧ { s.unflagged u with main := s.main } = s

/-- ADD HL,ss and ADD XY,pp; ADC HL,ss and SBC HL,ss with their six flags; 16-bit INC and DEC, which wrap at 65536
and change no flag. -/
def Obligations.WordArithmetic : Prop :=
  (∀ s p, Completes (.addHLPair p) s 1 1 11 fun u =>
    WordAdded (s.pair .hl) (s.pair p) (u.pair .hl) s u ∧ OnlyHLAndFlags s u) ∧
  (∀ s x p, Completes (.addXYPair x p) s 2 2 15 fun u =>
    WordAdded (s.xy x)
      (match p with
        | .bc => s.pair .bc
        | .de => s.pair .de
        | .self => s.xy x
        | .sp => s.sp) (u.xy x) s u ∧ OnlyXYAndFlags s u x) ∧
  (∀ s p, Completes (.adcHLPair p) s 2 2 15 fun u =>
    let a := s.pair .hl
    let b := s.pair p
    let c := s.main.f.c
    (u.pair .hl).toNat = (a.toNat + b.toNat + c.toNat) % 65536 ∧
      WordSigned (u.pair .hl) (a.toInt + b.toInt + c.toNat) u.main.f ∧
      (u.main.f.h = true ↔ 4095 < a.toNat % 4096 + b.toNat % 4096 + c.toNat) ∧ u.main.f.n = false ∧
      (u.main.f.c = true ↔ 65535 < a.toNat + b.toNat + c.toNat) ∧ OnlyHLAndFlags s u) ∧
  (∀ s p, Completes (.sbcHLPair p) s 2 2 15 fun u =>
    let a := s.pair .hl
    let b := s.pair p
    let c := s.main.f.c
    ((u.pair .hl).toNat : Int) = ((a.toNat : Int) - b.toNat - c.toNat) % 65536 ∧
      WordSigned (u.pair .hl) (a.toInt - b.toInt - c.toNat) u.main.f ∧
      (u.main.f.h = true ↔ a.toNat % 4096 < b.toNat % 4096 + c.toNat) ∧ u.main.f.n = true ∧
      (u.main.f.c = true ↔ a.toNat < b.toNat + c.toNat) ∧ OnlyHLAndFlags s u) ∧
  (∀ s p, Completes (.incPair p) s 1 1 6 fun u =>
    (u.pair p).toNat = ((s.pair p).toNat + 1) % 65536 ∧ OnlyPair s u p) ∧
  (∀ s x, Completes (.incXY x) s 2 2 10 fun u => (u.xy x).toNat = ((s.xy x).toNat + 1) % 65536 ∧ OnlyXY s u x) ∧
  (∀ s p, Completes (.decPair p) s 1 1 6 fun u =>
    (u.pair p).toNat = ((s.pair p).toNat + 65535) % 65536 ∧ OnlyPair s u p) ∧
  (∀ s x, Completes (.decXY x) s 2 2 10 fun u =>
    (u.xy x).toNat = ((s.xy x).toNat + 65535) % 65536 ∧ OnlyXY s u x)

/-! ## Rotates, shifts and bits -/

/-- RLCA, RLA, RRCA and RRA rotate A, set C from the bit that leaves, clear H and N and keep S, Z and P/V. -/
def Obligations.AccumulatorRotates : Prop :=
  ∀ s, (∀ p ∈ [(Instr.rlca, RotOp.rlc), (.rla, .rl), (.rrca, .rrc), (.rra, .rr)],
    Completes p.1 s 1 1 4 fun u =>
      u.main.a.toNat = rotateValue p.2 s.main.a s.main.f.c ∧ u.main.f.c = rotateCarry p.2 s.main.a ∧
        u.main.f.h = false ∧ u.main.f.n = false ∧ KeepsSZP s u ∧ OnlyRegAndFlags s u .a)

/-- The eight CB rotates and shifts, as the constructors of their four operand forms (R444). -/
def Sys2Proof.Spec.rotates :
    List (RotOp × (Reg8 → Instr) × Instr × (IndexReg → Byte → Instr) × (IndexReg → Byte → Reg8 → Instr)) :=
  [(.rlc, .rlcR, .rlcIndHL, .rlcIndXY, .rlcIndXYR), (.rrc, .rrcR, .rrcIndHL, .rrcIndXY, .rrcIndXYR),
    (.rl, .rlR, .rlIndHL, .rlIndXY, .rlIndXYR), (.rr, .rrR, .rrIndHL, .rrIndXY, .rrIndXYR),
    (.sla, .slaR, .slaIndHL, .slaIndXY, .slaIndXYR), (.sra, .sraR, .sraIndHL, .sraIndXY, .sraIndXYR),
    (.sll, .sllR, .sllIndHL, .sllIndXY, .sllIndXYR), (.srl, .srlR, .srlIndHL, .srlIndXY, .srlIndXYR)]

/-- The eight CB rotates and shifts in their four operand forms. In the copy form the register takes the result even
when the store is a no-op. -/
def Obligations.RotatesAndShifts : Prop :=
  ∀ p ∈ Sys2Proof.Spec.rotates, ∀ s : State,
    (∀ q, Completes (p.2.1 q) s 2 2 8 fun u =>
      (u.reg q).toNat = rotateValue p.1 (s.reg q) s.main.f.c ∧ RotateFlags p.1 (s.reg q) s u ∧
        OnlyRegAndFlags s u q) ∧
    (Completes p.2.2.1 s 2 2 15 fun u =>
      let v := s.readByte (s.pair .hl)
      Stored s u (s.pair .hl) (BitVec.ofNat 8 (rotateValue p.1 v s.main.f.c)) ∧ RotateFlags p.1 v s u ∧
        OnlyMemAndFlags s u) ∧
    (∀ x d, Completes (p.2.2.2.1 x d) s 4 2 23 fun u =>
      let v := s.readByte (s.ea x d)
      Stored s u (s.ea x d) (BitVec.ofNat 8 (rotateValue p.1 v s.main.f.c)) ∧ RotateFlags p.1 v s u ∧
        OnlyMemAndFlags s u) ∧
    (∀ x d q, Completes (p.2.2.2.2 x d q) s 4 2 23 fun u =>
      let v := s.readByte (s.ea x d)
      Stored s u (s.ea x d) (BitVec.ofNat 8 (rotateValue p.1 v s.main.f.c)) ∧ RotateFlags p.1 v s u ∧
        (u.reg q).toNat = rotateValue p.1 v s.main.f.c ∧ (∀ k, k ≠ q → u.reg k = s.reg k) ∧
        { s.unflagged u with main := s.main, mem := s.mem } = s)

/-- RLD and RRD rotate three digits between A and the byte at HL: the digits are written as numbers below 16. -/
def Obligations.DigitRotates : Prop :=
  (∀ s, Completes .rld s 2 2 18 fun u =>
    let v := s.readByte (s.pair .hl)
    Stored s u (s.pair .hl) (BitVec.ofNat 8 (v.toNat % 16 * 16 + s.main.a.toNat % 16)) ∧
      u.main.a.toNat = s.main.a.toNat / 16 * 16 + v.toNat / 16 ∧ SignZeroParity u.main.a u.main.f ∧
      u.main.f.h = false ∧ u.main.f.n = false ∧ u.main.f.c = s.main.f.c ∧ (∀ k, k ≠ .a → u.reg k = s.reg k) ∧
      { s.unflagged u with main := s.main, mem := s.mem } = s) ∧
  (∀ s, Completes .rrd s 2 2 18 fun u =>
    let v := s.readByte (s.pair .hl)
    Stored s u (s.pair .hl) (BitVec.ofNat 8 (s.main.a.toNat % 16 * 16 + v.toNat / 16)) ∧
      u.main.a.toNat = s.main.a.toNat / 16 * 16 + v.toNat % 16 ∧ SignZeroParity u.main.a u.main.f ∧
      u.main.f.h = false ∧ u.main.f.n = false ∧ u.main.f.c = s.main.f.c ∧ (∀ k, k ≠ .a → u.reg k = s.reg k) ∧
      { s.unflagged u with main := s.main, mem := s.mem } = s)

/-- The flags of BIT b of `v`: Z is the bit's complement, H is set, N is cleared and C is kept; S and P/V are free. -/
def Sys2Proof.Spec.Tested (b : BitVec 3) (v : Byte) (s u : State) : Prop :=
  (u.main.f.z = true ↔ v.toNat / 2 ^ b.toNat % 2 = 0) ∧ u.main.f.h = true ∧ u.main.f.n = false ∧
    u.main.f.c = s.main.f.c ∧ OnlyFlags s u

/-- BIT in its three operand forms and its duplicates: only F changes. -/
def Obligations.BitTests : Prop :=
  (∀ s b q, Completes (.bitR b q) s 2 2 8 (Tested b (s.reg q) s)) ∧
  (∀ s b, Completes (.bitIndHL b) s 2 2 12 (Tested b (s.readByte (s.pair .hl)) s)) ∧
  (∀ s x d b, Completes (.bitIndXY x d b) s 4 2 20 (Tested b (s.readByte (s.ea x d)) s)) ∧
  (∀ s x d b q, Completes (.bitIndXYDup x d b q) s 4 2 20 (Tested b (s.readByte (s.ea x d)) s))

/-- SET (`w` = true) and RES (`w` = false), as the constructors of their four operand forms. -/
def Sys2Proof.Spec.bitWrites : List (Bool × (BitVec 3 → Reg8 → Instr) × (BitVec 3 → Instr) ×
    (IndexReg → Byte → BitVec 3 → Instr) × (IndexReg → Byte → BitVec 3 → Reg8 → Instr)) :=
  [(true, .setR, .setIndHL, .setIndXY, .setIndXYR), (false, .resR, .resIndHL, .resIndXY, .resIndXYR)]

/-- `r` is `v` with bit `b` set to `w` and every other bit kept. -/
def Sys2Proof.Spec.BitWritten (w : Bool) (b : BitVec 3) (v r : Byte) : Prop :=
  ∀ k < 8, r.getLsbD k = if k = b.toNat then w else v.getLsbD k

/-- SET and RES in their four operand forms: one bit of the operand takes the value, and no flag changes. -/
def Obligations.BitSetAndReset : Prop :=
  ∀ p ∈ Sys2Proof.Spec.bitWrites, ∀ (s : State) (b : BitVec 3),
    (∀ q, Completes (p.2.1 b q) s 2 2 8 fun u => BitWritten p.1 b (s.reg q) (u.reg q) ∧ OnlyReg s u q) ∧
    (Completes (p.2.2.1 b) s 2 2 15 fun u =>
      ∃ r, BitWritten p.1 b (s.readByte (s.pair .hl)) r ∧ Stored s u (s.pair .hl) r ∧ OnlyMem s u) ∧
    (∀ x d, Completes (p.2.2.2.1 x d b) s 4 2 23 fun u =>
      ∃ r, BitWritten p.1 b (s.readByte (s.ea x d)) r ∧ Stored s u (s.ea x d) r ∧ OnlyMem s u) ∧
    (∀ x d q, Completes (p.2.2.2.2 x d b q) s 4 2 23 fun u =>
      BitWritten p.1 b (s.readByte (s.ea x d)) (u.reg q) ∧ Stored s u (s.ea x d) (u.reg q) ∧
        (∀ k, k ≠ q → u.reg k = s.reg k) ∧ u.main.f = s.main.f ∧
        { s.unfetched u with main := s.main, mem := s.mem } = s)

/-! ## Control transfer -/

/-- The target of a relative jump: the address after its two bytes plus the signed offset, modulo 65536 (R162). -/
def Sys2Proof.Spec.relative (pc : Word) (e : Byte) : Word := BitVec.ofInt 16 ((pc.toNat : Int) + 2 + e.toInt)

/-- The jumps: absolute, relative, conditional, through HL or XY, and DJNZ, which counts B down and jumps unless it
reaches 0. -/
def Obligations.JumpInstructions : Prop :=
  (∀ s nn, GoesTo (.jp nn) s nn 1 10 (Nothing s)) ∧
  (∀ s cc nn, GoesTo (.jpCond cc nn) s (if s.main.f.holds cc then nn else s.pc + 3) 1 10 (Nothing s)) ∧
  (∀ s e, GoesTo (.jr e) s (relative s.pc e) 1 12 (Nothing s)) ∧
  (∀ s cc e, s.main.f.holds cc = true → GoesTo (.jrCond cc e) s (relative s.pc e) 1 12 (Nothing s)) ∧
  (∀ s cc e, s.main.f.holds cc = false → Completes (.jrCond cc e) s 2 1 7 (Nothing s)) ∧
  (∀ s, GoesTo .jpHL s (s.pair .hl) 1 4 (Nothing s)) ∧
  (∀ s x, GoesTo (.jpXY x) s (s.xy x) 2 8 (Nothing s)) ∧
  (∀ s e, s.main.b ≠ 1 → GoesTo (.djnz e) s (relative s.pc e) 1 13 fun u =>
    u.main.b = s.main.b - 1 ∧ OnlyReg s u .b) ∧
  (∀ s e, s.main.b = 1 → Completes (.djnz e) s 2 1 8 fun u => u.main.b = 0 ∧ OnlyReg s u .b)

/-- Memory and SP after a push of the word `v`, with nothing else changed. -/
def Sys2Proof.Spec.Pushed (v : Word) (s u : State) : Prop :=
  StoredWord s u (s.sp - 2) v ∧ u.sp = s.sp - 2 ∧ { s.unfetched u with mem := s.mem, sp := s.sp } = s

/-- CALL and RST push the address after the instruction; RET pops the PC; the conditional forms not taken change
nothing but what fetching them changes. -/
def Obligations.CallsAndReturns : Prop :=
  (∀ s nn, GoesTo (.call nn) s nn 1 17 (Pushed (s.pc + 3) s)) ∧
  (∀ s cc nn, s.main.f.holds cc = true → GoesTo (.callCond cc nn) s nn 1 17 (Pushed (s.pc + 3) s)) ∧
  (∀ s cc nn, s.main.f.holds cc = false → Completes (.callCond cc nn) s 3 1 10 (Nothing s)) ∧
  (∀ s, GoesTo .ret s (s.readWord s.sp) 1 10 fun u => u.sp = s.sp + 2 ∧ { s.unfetched u with sp := s.sp } = s) ∧
  (∀ s cc, s.main.f.holds cc = true → GoesTo (.retCond cc) s (s.readWord s.sp) 1 11 fun u =>
    u.sp = s.sp + 2 ∧ { s.unfetched u with sp := s.sp } = s) ∧
  (∀ s cc, s.main.f.holds cc = false → Completes (.retCond cc) s 1 1 5 (Nothing s)) ∧
  (∀ s t, GoesTo (.rst t) s (BitVec.ofNat 16 (8 * t.toNat)) 1 11 (Pushed (s.pc + 1) s))

/-- RETI, RETN and its duplicates pop the PC and copy IFF2 to IFF1, and change nothing else. -/
def Obligations.InterruptReturns : Prop :=
  ∀ (s : State) (y : BitVec 3), ∀ i ∈ [Instr.reti, .retn, .retnDup y],
    GoesTo i s (s.readWord s.sp) 2 14 fun u =>
      u.sp = s.sp + 2 ∧ u.iff1 = s.iff2 ∧ { s.unfetched u with sp := s.sp, iff1 := s.iff1 } = s

/-! ## Input and output -/

/-- The high bytes that select keyboard rows 0 to 7, in order (R122). -/
def Sys2Proof.Spec.keyMask : List Byte := [0xFE, 0xFD, 0xFB, 0xF7, 0xEF, 0xDF, 0xBF, 0x7F]

/-- A port read with low byte 0xFE and a KEYMASK high byte gives that keyboard row, a draw (logs 1 and 2); every other
port reads 0xFF (R120, R122). -/
def Obligations.PortReads : Prop :=
  (∀ (s : State) (k : Fin 8), s.portRead (keyMask.get k) 0xFE = Config.keyRow s.draws (BitVec.ofFin k)) ∧
  (∀ (s : State) (hi lo : Byte), lo ≠ 0xFE ∨ hi ∉ keyMask → s.portRead hi lo = 0xFF)

/-- IN A,(n) reads the port (A, n) and changes no flag; IN r,(C) and IN F,(C) read the port (B, C) and set the flags
from the byte, which only the first stores. Each uses up one draw, so that no two port reads share one (R123); the
draw counter is the model's (logs 1 and 2). -/
def Obligations.PortInputs : Prop :=
  (∀ s n, Completes (.inAN n) s 2 1 11 fun u =>
    u.main.a = s.portRead s.main.a n ∧ u.main.f = s.main.f ∧ u.draws = s.draws + 1 ∧ OnlyRegAndFlags s u .a) ∧
  (∀ s r, Completes (.inRC r) s 2 2 12 fun u =>
    let v := s.portRead s.main.b s.main.c
    u.reg r = v ∧ SignZeroParity v u.main.f ∧ u.main.f.h = false ∧ u.main.f.n = false ∧
      u.main.f.c = s.main.f.c ∧ u.draws = s.draws + 1 ∧ OnlyRegAndFlags s u r) ∧
  (∀ s, Completes .inFC s 2 2 12 fun u =>
    let v := s.portRead s.main.b s.main.c
    SignZeroParity v u.main.f ∧ u.main.f.h = false ∧ u.main.f.n = false ∧ u.main.f.c = s.main.f.c ∧
      u.draws = s.draws + 1 ∧ OnlyFlags s u)

/-- What INI (`back` = false) and IND (`back` = true) leave: the port's high byte is B before the decrement; Z and N
are set, and S, H, P/V and C are free. One draw is used up (logs 1 and 2). -/
def Sys2Proof.Spec.PortToMemory (back : Bool) (s u : State) : Prop :=
  Stored s u (s.pair .hl) (s.portRead s.main.b s.main.c) ∧ u.pair .hl = along back (s.pair .hl) ∧
    u.main.b = s.main.b - 1 ∧ (u.main.f.z = true ↔ u.main.b = 0) ∧ u.main.f.n = true ∧
    u.main.a = s.main.a ∧ u.main.c = s.main.c ∧ u.pair .de = s.pair .de ∧ u.draws = s.draws + 1 ∧
    { s.unflagged u with main := s.main, mem := s.mem } = s

/-- OUT (n),A, OUT (C),r and OUT (C),0 change nothing but PC, R and the cycle counter: a port write has no effect. -/
def Obligations.PortOutputs : Prop :=
  (∀ s n, Completes (.outNA n) s 2 1 11 (Nothing s)) ∧
  (∀ s r, Completes (.outCR r) s 2 2 12 (Nothing s)) ∧
  (∀ s, Completes .outC0 s 2 2 12 (Nothing s))

/-- What OUTI (`back` = false) and OUTD (`back` = true) leave: memory is unchanged, and one draw is used up
(log 1). -/
def Sys2Proof.Spec.MemoryToPort (back : Bool) (s u : State) : Prop :=
  u.pair .hl = along back (s.pair .hl) ∧ u.main.b = s.main.b - 1 ∧ (u.main.f.z = true ↔ u.main.b = 0) ∧
    u.main.f.n = true ∧ u.main.a = s.main.a ∧ u.main.c = s.main.c ∧ u.pair .de = s.pair .de ∧
    u.draws = s.draws + 1 ∧ { s.unflagged u with main := s.main } = s

/-- INI, IND, OUTI and OUTD, and one iteration of INIR, INDR, OTIR and OTDR, which repeat while B is not 0. Each
uses up one draw (R123); the draw counter is the model's (logs 1 and 2). -/
def Obligations.BlockInputAndOutput : Prop :=
  (∀ s, Completes .ini s 2 2 16 (PortToMemory false s) ∧ Completes .ind s 2 2 16 (PortToMemory true s) ∧
    Completes .outi s 2 2 16 (MemoryToPort false s) ∧ Completes .outd s 2 2 16 (MemoryToPort true s)) ∧
  (∀ s, s.main.b = 1 →
    Completes .inir s 2 2 16 (PortToMemory false s) ∧ Completes .indr s 2 2 16 (PortToMemory true s) ∧
      Completes .otir s 2 2 16 (MemoryToPort false s) ∧ Completes .otdr s 2 2 16 (MemoryToPort true s)) ∧
  (∀ s, s.main.b ≠ 1 →
    GoesTo .inir s s.pc 2 21 (PortToMemory false s) ∧ GoesTo .indr s s.pc 2 21 (PortToMemory true s) ∧
      GoesTo .otir s s.pc 2 21 (MemoryToPort false s) ∧ GoesTo .otdr s s.pc 2 21 (MemoryToPort true s))

/-! ## Prefix bytes -/

/-- An index prefix byte, whatever follows it, adds 1 to PC and R and 4 to the cycle counter, selects the index
register in place of an earlier prefix's, and changes nothing else. -/
def Obligations.IndexPrefixBytes : Prop :=
  ∀ (s : State) (x y : IndexReg) (w : Byte),
    ∀ i ∈ [Instr.prefixIndex x, .prefixCBAfterIndex x, .prefixEDAfterIndex x, .prefixRestart x y,
      .ignoredIndexPrefix x w],
      ∃ u, exec i s = .next u ∧ u.pc = s.pc + 1 ∧ u.r = s.r + 1 ∧ u.tstates = s.tstates + 4 ∧ u.pfx = some x ∧
        Nothing s u

/-- The byte 0xCB runs the CB map on the next byte, or after an index prefix the xycb map on the next two; the byte 0xED
runs the ED map on the next byte whatever the prefix. Both complete in every state. -/
def Obligations.MapSelectingBytes : Prop :=
  (∀ s : State, s.pfx = none → exec .prefixCB s = exec (decodeCB (s.readByte (s.pc + 1))) s) ∧
  (∀ (s : State) (x : IndexReg), s.pfx = some x →
    exec .prefixCB s = exec (decodeXYCB x (s.readByte (s.pc + 1)) (s.readByte (s.pc + 2))) s) ∧
  (∀ s : State, exec .prefixED s =
    exec (decodeED (s.readByte (s.pc + 1)) (s.readByte (s.pc + 2)) (s.readByte (s.pc + 3))) s) ∧
  (∀ s : State, ∃ u v, exec .prefixCB s = .next u ∧ u.pfx = none ∧ exec .prefixED s = .next v ∧ v.pfx = none)

/-- An instruction with its own index prefix gives the same state whether `exec` takes the prefix byte or an earlier
sub-step took it. That `exec` takes the prefix byte unless it was taken is the MODEL'S CHOICE (log 9). -/
def Obligations.OwnPrefixTakenOnce : Prop :=
  ∀ (i : Instr) (x : IndexReg) (s : State), ownIndex i = some x → s.pfx ≠ some x →
    exec i (s.takePrefix x) = exec i s

/-! ## Boundaries, host actions, wait states and reset -/

/-- After an instruction, a pending interrupt is accepted if IFF1 is set: PC is pushed and becomes 0x0038, both
enables and `halted` are cleared, R and the cycle counter advance by 1 and 13, and nothing else but the request and the
throttle's `run` changes (R603, R606, R610). With IFF1 clear it is dropped, and with no request nothing happens: only
the request and the throttle's `run` change (R605). After an index prefix byte there is no boundary (R154). -/
def Obligations.InterruptSampling : Prop :=
  (∀ s : State, s.pfx = none → s.request = .pendingInterrupt → s.iff1 = true →
    StoredWord s s.finish (s.sp - 2) s.pc ∧ s.finish.sp = s.sp - 2 ∧ s.finish.pc = 0x0038 ∧
      s.finish.iff1 = false ∧ s.finish.iff2 = false ∧ s.finish.halted = false ∧ s.finish.r = s.r + 1 ∧
      s.finish.tstates = s.tstates + 13 ∧ s.finish.request = .idle ∧
      { s.finish with
        mem := s.mem, sp := s.sp, pc := s.pc, iff1 := s.iff1, iff2 := s.iff2, halted := s.halted, r := s.r,
        tstates := s.tstates, request := s.request, run := s.run } = s) ∧
  (∀ s : State, s.pfx = none → s.request = .idle ∨ s.request = .pendingInterrupt ∧ s.iff1 = false →
    s.finish.request = .idle ∧ { s.finish with request := s.request, run := s.run } = s) ∧
  (∀ s : State, s.pfx ≠ none → s.finish = s)

/-- After an instruction, a pending reset gives the reset state whatever IFF1 is, with memory, speed, `run`, the
parameters and the model's own fields kept; nothing is pushed (R604, R700). -/
def Obligations.ResetAtBoundary : Prop :=
  ∀ s : State, s.pfx = none → s.request = .pendingReset →
    s.finish = { State.reset with
      mem := s.mem, speed := s.speed, run := s.run, params := s.params, inbox := s.inbox, draws := s.draws }

/-- The power-on state, memory and the open parameters apart: every register, flag and counter is 0, interrupts are
disabled, no request is pending, and the core runs at normal speed. -/
def Obligations.PowerOnState : Prop :=
  (∀ r, State.reset.main.get r = 0 ∧ State.reset.alt.get r = 0) ∧
  State.reset.main.f.toByte = 0 ∧ State.reset.alt.f.toByte = 0 ∧
  (∀ x, State.reset.xy x = 0) ∧ State.reset.sp = 0 ∧ State.reset.pc = 0 ∧ State.reset.i = 0 ∧ State.reset.r = 0 ∧
  State.reset.iff1 = false ∧ State.reset.iff2 = false ∧ State.reset.im = 0 ∧ State.reset.tstates = 0 ∧
  State.reset.halted = false ∧ State.reset.pfx = none ∧ State.reset.request = .idle ∧ State.reset.run = .running ∧
  State.reset.speed = .normal ∧
  (∀ a : Word, State.reset.writable a = decide (0x2000 ≤ a.toNat))

/-- The host actions of one step act one by one before the core does. A tick makes an idle request pending, and wakes a
suspended core with the cycle counter at 0; a reset request and a speed switch write their field and nothing else. A
suspended core waits on under every action but a tick, and a core in a trap wait under every action but the routine's,
so that a reset request reaches no boundary before the wait ends. MODEL'S CHOICES: the host actions to come stand in
`inbox`, are applied before the core's transition, and a waiting core's step answers next with just their effect
(log 5); a tape return outside a trap wait, a suspended core's among them, does nothing (log 13). -/
def Obligations.HostActions : Prop :=
  (∀ (s : State) (e : HostEvent) (es : List HostEvent) (rest : List (List HostEvent)),
    s.inbox = (e :: es) :: rest → step s = step { s.hostAction e with inbox := es :: rest }) ∧
  (∀ s : State, (s.hostAction .tick).request = (if s.request = .idle then .pendingInterrupt else s.request) ∧
    (s.run = .suspended → (s.hostAction .tick).run = .running ∧ (s.hostAction .tick).tstates = 0) ∧
    (s.run ≠ .suspended → (s.hostAction .tick).run = s.run ∧ (s.hostAction .tick).tstates = s.tstates) ∧
    { s.hostAction .tick with request := s.request, run := s.run, tstates := s.tstates } = s) ∧
  (∀ s : State, s.hostAction .resetRequest = { s with request := .pendingReset }) ∧
  (∀ (s : State) (v : Speed), s.hostAction (.setSpeed v) = { s with speed := v }) ∧
  (∀ (s : State) (e : HostEvent) (rest : List (List HostEvent)),
    (s.run = .suspended ∧ e ≠ .tick) ∨ (∃ k, s.run = .trapWait k) ∧ (∀ x, e ≠ .tapeReturn x) →
      s.inbox = [e] :: rest → step s = .next { s.hostAction e with inbox := rest } ∧ (s.hostAction e).run = s.run)

/-- The throttle: after the sampling of a boundary, the core is suspended exactly when the speed is normal and the
cycle counter is above the budget (R651); a suspended core takes no step (R650). MODEL'S CHOICE: the step of a core that
waits, with no host action to come, answers next with the same state (log 5). -/
def Obligations.ThrottleSuspends : Prop :=
  (∀ s : State, s.pfx = none →
    s.finish.run =
      if s.speed = .normal ∧ s.params.tstatesPerTick < s.finish.tstates.toNat then .suspended else s.run) ∧
  (∀ s : State, s.inbox = [] → s.run = .suspended → step s = .next s)

/-- HALT sets `halted`, with PC past it. A halted core takes idle cycles: R and the cycle counter advance by 1 and 4,
nothing is fetched, no trap is tested, PC stays, and the boundary actions follow; an accepted interrupt pushes PC and
ends the halt, a reset ends it, and a dropped interrupt does not. -/
def Obligations.HaltAndIdleCycles : Prop :=
  (∀ s, Completes .halt s 1 1 4 fun u => u.halted = true ∧ { s.unfetched u with halted := s.halted } = s) ∧
  (∀ s : State, s.inbox = [] → s.run = .running → s.halted = true →
    step s = .next ({ s with r := s.r + 1, tstates := s.tstates + 4 } : State).boundary) ∧
  ∀ s : State, s.inbox = [] → s.run = .running → s.halted = true → s.speed = .unthrottled →
    (s.request = .idle → step s = .next { s with r := s.r + 1, tstates := s.tstates + 4 }) ∧
    (s.request = .pendingInterrupt → s.iff1 = false →
      step s = .next { s with r := s.r + 1, tstates := s.tstates + 4, request := .idle }) ∧
    (s.request = .pendingInterrupt → s.iff1 = true →
      ∃ u, step s = .next u ∧ u.halted = false ∧ u.pc = 0x0038 ∧ u.sp = s.sp - 2 ∧ StoredWord s u (s.sp - 2) s.pc ∧
        u.r = s.r + 2 ∧ u.tstates = s.tstates + 17) ∧
    (s.request = .pendingReset → ∃ u, step s = .next u ∧ u.halted = false ∧ u.pc = 0)

/-- Tape traps. A step that would begin at a trap address only makes the core wait for that routine, LOAD being tested
first where the two addresses are equal (log 12); with the check disabled there is no trap; and a waiting core takes no
step (R640). The routine ends the wait: every address reads what its stores leave by the write attributes and the
mirrors, it sets the two register sets, IX, IY, SP and PC, the core runs, and nothing else changes (R641). MODEL'S
CHOICE: the step of a waiting core, with no host action to come, answers next with the same state, and the routine is
the host action that carries its result (log 5). -/
def Obligations.TapeTraps : Prop :=
  (∀ s : State, s.inbox = [] → s.run = .running → s.halted = false → s.pfx = none → s.params.trapEnabled = true →
    (s.pc = s.params.trapLoad → step s = .next { s with run := .trapWait .load }) ∧
    (s.pc = s.params.trapSave → s.pc ≠ s.params.trapLoad → step s = .next { s with run := .trapWait .save })) ∧
  (∀ s : State, s.params.trapEnabled = false → s.trapAt = none) ∧
  (∀ (s : State) (k : TrapKind), s.run = .trapWait k → (s.inbox = [] → step s = .next s) ∧
    ∀ x : TapeResult,
      let u := s.hostAction (.tapeReturn x)
      u.main = x.main ∧ u.alt = x.alt ∧ u.ix = x.ix ∧ u.iy = x.iy ∧ u.sp = x.sp ∧ u.pc = x.pc ∧ u.run = .running ∧
      { u with
        main := s.main, alt := s.alt, ix := s.ix, iy := s.iy, sp := s.sp, pc := s.pc, run := s.run,
        mem := s.mem } = s ∧
      u.mem = (x.stores.foldl (fun t p => t.writeByte p.1 p.2) s).mem ∧
      ∀ b : Word, u.readByte b = s.byteAfter x.stores b)

/-- No other field of what an instruction gives depends on the cycle counter, and none of what a step at unthrottled
speed gives with no host action to come: from states that differ only in the counter they give states that differ only
in it. At normal speed `run` depends on it, by the throttle (R651). -/
def Obligations.NothingDependsOnTheCycleCounter : Prop :=
  (∀ (i : Instr) (s u : State) (n : Count), exec i s = .next u →
    ∃ m, exec i { s with tstates := n } = .next { u with tstates := m }) ∧
  (∀ (s u : State) (n : Count), s.inbox = [] → s.speed = .unthrottled → step s = .next u →
    ∃ m, step { s with tstates := n } = .next { u with tstates := m })

/-! ## The length of an instruction -/

/-- `u` is the state after `n` steps from `s`. -/
def Sys2Proof.Spec.Reaches : Nat → State → State → Prop
  | 0, s, u => u = s
  | n + 1, s, u => ∃ t, step s = .next t ∧ Reaches n t u

/-- The `n` bytes at PC and after it. -/
def Sys2Proof.Spec.bytesAtPC (s : State) (n : Nat) : List Byte :=
  (List.range n).map fun k => s.readByte (s.pc + BitVec.ofNat 16 k)

/-- The length of an instruction, any number of index prefixes counted (R161). The leading bytes alone tell it. It is
the length of the ignored and replaced prefixes and of the encoding of the instruction after them. Every row of
prefixes with four more bytes after it holds a whole instruction. And `step` takes just these bytes: from a boundary
with no trap, one step for each of those prefixes (the sub-steps are log 9's), and then the instruction. -/
def Obligations.LengthCountsEveryPrefix : Prop :=
  (∀ (bs more : List Byte) (n : Nat), instrLength bs = some n → instrLength (bs ++ more) = some n) ∧
  (∀ (bs : List Byte) (ps : List IndexReg) (i : Instr) (rest : List Byte),
    decodeWithPrefixes bs = some (ps, i, rest) →
      instrLength bs = some (ps.length + (encode i).length) ∧ bs = ps.map IndexReg.byte ++ encode i ++ rest) ∧
  (∀ (ps : List IndexReg) (op b1 b2 b3 : Byte) (rest : List Byte), op ∉ [(0xDD : Byte), 0xFD] →
    ∃ d, decodeWithPrefixes (ps.map IndexReg.byte ++ op :: b1 :: b2 :: b3 :: rest) = some d) ∧
  (∀ (s : State) (n : Nat) (ps : List IndexReg) (i : Instr) (rest : List Byte),
    s.inbox = [] → s.run = .running → s.halted = false → s.pfx = none → s.trapAt = none →
    decodeWithPrefixes (bytesAtPC s (n + 4)) = some (ps, i, rest) → ps.length ≤ n →
      Reaches ps.length s (ps.foldl (fun t x => t.takePrefix x) s) ∧
        RunsFrom (ps.foldl (fun t x => t.takePrefix x) s) i)
end

