-- ==== Sys2Proof/Laws/Decode.lean ====
section
/-! SUPPORT. The length of an instruction (R161): what an index prefix adds, and when it adds nothing else. -/

namespace Sys2Proof

theorem IndexReg.ofByte_byte (x : IndexReg) : IndexReg.ofByte x.byte = some x := by
  cases x <;> rfl

/-- An index prefix byte counts for one, and what follows is read as prefixed. -/
theorem lengthAfter_prefixed (p : Bool) (x : IndexReg) (bs : List Byte) :
    lengthAfter p (x.byte :: bs) = (lengthAfter true bs).map (· + 1) := by
  cases x <;> (rw [lengthAfter]; rfl)

/-- A byte that ignores an index prefix has no displacement. -/
theorem not_class1_of_ignoresPrefix : ∀ op : Byte, ignoresPrefix op = true → Machine.class1Bytes.contains op = false := by
  decide

/-- Where the opcode ignores the prefix, the length is that of the bytes without one. -/
theorem lengthAfter_of_ignoresPrefix {op : Byte} (h : ignoresPrefix op = true) (p : Bool) (bs : List Byte) :
    lengthAfter p (op :: bs) = instrLength (op :: bs) := by
  have hcb : op ≠ 0xCB := by
    rintro rfl
    revert h
    decide
  unfold instrLength lengthAfter
  rw [not_class1_of_ignoresPrefix op h, if_neg hcb, if_neg hcb]
  simp

end Sys2Proof
end

