-- ==== Sys2Proof/Laws/State.lean ====
section
/-! SUPPORT. What each update of the state does to each field of it: one lemma a field, so that no proof unfolds a
record update. -/

namespace Sys2Proof.Machine

/-! ### The fetch accounting and the draws -/

@[simp] theorem State.takePrefix_main (s : State) (x : IndexReg) : (s.takePrefix x).main = s.main := rfl
@[simp] theorem State.takePrefix_alt (s : State) (x : IndexReg) : (s.takePrefix x).alt = s.alt := rfl
@[simp] theorem State.takePrefix_ix (s : State) (x : IndexReg) : (s.takePrefix x).ix = s.ix := rfl
@[simp] theorem State.takePrefix_iy (s : State) (x : IndexReg) : (s.takePrefix x).iy = s.iy := rfl
@[simp] theorem State.takePrefix_sp (s : State) (x : IndexReg) : (s.takePrefix x).sp = s.sp := rfl
@[simp] theorem State.takePrefix_pc (s : State) (x : IndexReg) : (s.takePrefix x).pc = s.pc + 1 := rfl
@[simp] theorem State.takePrefix_i (s : State) (x : IndexReg) : (s.takePrefix x).i = s.i := rfl
@[simp] theorem State.takePrefix_r (s : State) (x : IndexReg) : (s.takePrefix x).r = s.r + 1 := rfl
@[simp] theorem State.takePrefix_iff1 (s : State) (x : IndexReg) : (s.takePrefix x).iff1 = s.iff1 := rfl
@[simp] theorem State.takePrefix_iff2 (s : State) (x : IndexReg) : (s.takePrefix x).iff2 = s.iff2 := rfl
@[simp] theorem State.takePrefix_im (s : State) (x : IndexReg) : (s.takePrefix x).im = s.im := rfl
@[simp] theorem State.takePrefix_tstates (s : State) (x : IndexReg) : (s.takePrefix x).tstates = s.tstates + 4 := rfl
@[simp] theorem State.takePrefix_mem (s : State) (x : IndexReg) : (s.takePrefix x).mem = s.mem := rfl
@[simp] theorem State.takePrefix_halted (s : State) (x : IndexReg) : (s.takePrefix x).halted = s.halted := rfl
@[simp] theorem State.takePrefix_request (s : State) (x : IndexReg) : (s.takePrefix x).request = s.request := rfl
@[simp] theorem State.takePrefix_speed (s : State) (x : IndexReg) : (s.takePrefix x).speed = s.speed := rfl
@[simp] theorem State.takePrefix_run (s : State) (x : IndexReg) : (s.takePrefix x).run = s.run := rfl
@[simp] theorem State.takePrefix_pfx (s : State) (x : IndexReg) : (s.takePrefix x).pfx = some x := rfl
@[simp] theorem State.takePrefix_params (s : State) (x : IndexReg) : (s.takePrefix x).params = s.params := rfl
@[simp] theorem State.takePrefix_inbox (s : State) (x : IndexReg) : (s.takePrefix x).inbox = s.inbox := rfl
@[simp] theorem State.takePrefix_draws (s : State) (x : IndexReg) : (s.takePrefix x).draws = s.draws := rfl

@[simp] theorem State.fetched_main (s : State) (len : Word) (m1 : Byte) (t : Count) :
    (s.fetched len m1 t).main = s.main := rfl
@[simp] theorem State.fetched_alt (s : State) (len : Word) (m1 : Byte) (t : Count) :
    (s.fetched len m1 t).alt = s.alt := rfl
@[simp] theorem State.fetched_ix (s : State) (len : Word) (m1 : Byte) (t : Count) :
    (s.fetched len m1 t).ix = s.ix := rfl
@[simp] theorem State.fetched_iy (s : State) (len : Word) (m1 : Byte) (t : Count) :
    (s.fetched len m1 t).iy = s.iy := rfl
@[simp] theorem State.fetched_sp (s : State) (len : Word) (m1 : Byte) (t : Count) :
    (s.fetched len m1 t).sp = s.sp := rfl
@[simp] theorem State.fetched_pc (s : State) (len : Word) (m1 : Byte) (t : Count) :
    (s.fetched len m1 t).pc = s.pc + len := rfl
@[simp] theorem State.fetched_i (s : State) (len : Word) (m1 : Byte) (t : Count) : (s.fetched len m1 t).i = s.i := rfl
@[simp] theorem State.fetched_r (s : State) (len : Word) (m1 : Byte) (t : Count) :
    (s.fetched len m1 t).r = s.r + m1 := rfl
@[simp] theorem State.fetched_iff1 (s : State) (len : Word) (m1 : Byte) (t : Count) :
    (s.fetched len m1 t).iff1 = s.iff1 := rfl
@[simp] theorem State.fetched_iff2 (s : State) (len : Word) (m1 : Byte) (t : Count) :
    (s.fetched len m1 t).iff2 = s.iff2 := rfl
@[simp] theorem State.fetched_im (s : State) (len : Word) (m1 : Byte) (t : Count) :
    (s.fetched len m1 t).im = s.im := rfl
@[simp] theorem State.fetched_tstates (s : State) (len : Word) (m1 : Byte) (t : Count) :
    (s.fetched len m1 t).tstates = s.tstates + t := rfl
@[simp] theorem State.fetched_mem (s : State) (len : Word) (m1 : Byte) (t : Count) :
    (s.fetched len m1 t).mem = s.mem := rfl
@[simp] theorem State.fetched_halted (s : State) (len : Word) (m1 : Byte) (t : Count) :
    (s.fetched len m1 t).halted = s.halted := rfl
@[simp] theorem State.fetched_request (s : State) (len : Word) (m1 : Byte) (t : Count) :
    (s.fetched len m1 t).request = s.request := rfl
@[simp] theorem State.fetched_speed (s : State) (len : Word) (m1 : Byte) (t : Count) :
    (s.fetched len m1 t).speed = s.speed := rfl
@[simp] theorem State.fetched_run (s : State) (len : Word) (m1 : Byte) (t : Count) :
    (s.fetched len m1 t).run = s.run := rfl
@[simp] theorem State.fetched_pfx (s : State) (len : Word) (m1 : Byte) (t : Count) :
    (s.fetched len m1 t).pfx = none := rfl
@[simp] theorem State.fetched_params (s : State) (len : Word) (m1 : Byte) (t : Count) :
    (s.fetched len m1 t).params = s.params := rfl
@[simp] theorem State.fetched_inbox (s : State) (len : Word) (m1 : Byte) (t : Count) :
    (s.fetched len m1 t).inbox = s.inbox := rfl
@[simp] theorem State.fetched_draws (s : State) (len : Word) (m1 : Byte) (t : Count) :
    (s.fetched len m1 t).draws = s.draws := rfl

@[simp] theorem State.drawn_main (s : State) : (s.drawn).main = s.main := rfl
@[simp] theorem State.drawn_alt (s : State) : (s.drawn).alt = s.alt := rfl
@[simp] theorem State.drawn_ix (s : State) : (s.drawn).ix = s.ix := rfl
@[simp] theorem State.drawn_iy (s : State) : (s.drawn).iy = s.iy := rfl
@[simp] theorem State.drawn_sp (s : State) : (s.drawn).sp = s.sp := rfl
@[simp] theorem State.drawn_pc (s : State) : (s.drawn).pc = s.pc := rfl
@[simp] theorem State.drawn_i (s : State) : (s.drawn).i = s.i := rfl
@[simp] theorem State.drawn_r (s : State) : (s.drawn).r = s.r := rfl
@[simp] theorem State.drawn_iff1 (s : State) : (s.drawn).iff1 = s.iff1 := rfl
@[simp] theorem State.drawn_iff2 (s : State) : (s.drawn).iff2 = s.iff2 := rfl
@[simp] theorem State.drawn_im (s : State) : (s.drawn).im = s.im := rfl
@[simp] theorem State.drawn_tstates (s : State) : (s.drawn).tstates = s.tstates := rfl
@[simp] theorem State.drawn_mem (s : State) : (s.drawn).mem = s.mem := rfl
@[simp] theorem State.drawn_halted (s : State) : (s.drawn).halted = s.halted := rfl
@[simp] theorem State.drawn_request (s : State) : (s.drawn).request = s.request := rfl
@[simp] theorem State.drawn_speed (s : State) : (s.drawn).speed = s.speed := rfl
@[simp] theorem State.drawn_run (s : State) : (s.drawn).run = s.run := rfl
@[simp] theorem State.drawn_pfx (s : State) : (s.drawn).pfx = s.pfx := rfl
@[simp] theorem State.drawn_params (s : State) : (s.drawn).params = s.params := rfl
@[simp] theorem State.drawn_inbox (s : State) : (s.drawn).inbox = s.inbox := rfl
@[simp] theorem State.drawn_draws (s : State) : (s.drawn).draws = s.draws + 1 := rfl

@[simp] theorem State.setFlags_main (s : State) (f : Flags) : (s.setFlags f).main = { s.main with f := f } := rfl
@[simp] theorem State.setFlags_alt (s : State) (f : Flags) : (s.setFlags f).alt = s.alt := rfl
@[simp] theorem State.setFlags_ix (s : State) (f : Flags) : (s.setFlags f).ix = s.ix := rfl
@[simp] theorem State.setFlags_iy (s : State) (f : Flags) : (s.setFlags f).iy = s.iy := rfl
@[simp] theorem State.setFlags_sp (s : State) (f : Flags) : (s.setFlags f).sp = s.sp := rfl
@[simp] theorem State.setFlags_pc (s : State) (f : Flags) : (s.setFlags f).pc = s.pc := rfl
@[simp] theorem State.setFlags_i (s : State) (f : Flags) : (s.setFlags f).i = s.i := rfl
@[simp] theorem State.setFlags_r (s : State) (f : Flags) : (s.setFlags f).r = s.r := rfl
@[simp] theorem State.setFlags_iff1 (s : State) (f : Flags) : (s.setFlags f).iff1 = s.iff1 := rfl
@[simp] theorem State.setFlags_iff2 (s : State) (f : Flags) : (s.setFlags f).iff2 = s.iff2 := rfl
@[simp] theorem State.setFlags_im (s : State) (f : Flags) : (s.setFlags f).im = s.im := rfl
@[simp] theorem State.setFlags_tstates (s : State) (f : Flags) : (s.setFlags f).tstates = s.tstates := rfl
@[simp] theorem State.setFlags_mem (s : State) (f : Flags) : (s.setFlags f).mem = s.mem := rfl
@[simp] theorem State.setFlags_halted (s : State) (f : Flags) : (s.setFlags f).halted = s.halted := rfl
@[simp] theorem State.setFlags_request (s : State) (f : Flags) : (s.setFlags f).request = s.request := rfl
@[simp] theorem State.setFlags_speed (s : State) (f : Flags) : (s.setFlags f).speed = s.speed := rfl
@[simp] theorem State.setFlags_run (s : State) (f : Flags) : (s.setFlags f).run = s.run := rfl
@[simp] theorem State.setFlags_pfx (s : State) (f : Flags) : (s.setFlags f).pfx = s.pfx := rfl
@[simp] theorem State.setFlags_params (s : State) (f : Flags) : (s.setFlags f).params = s.params := rfl
@[simp] theorem State.setFlags_inbox (s : State) (f : Flags) : (s.setFlags f).inbox = s.inbox := rfl
@[simp] theorem State.setFlags_draws (s : State) (f : Flags) : (s.setFlags f).draws = s.draws + 1 := rfl

/-! ### Registers -/

@[simp] theorem State.setReg_main (s : State) (r : Reg8) (v : Byte) : (s.setReg r v).main = s.main.set r v := rfl
@[simp] theorem State.setReg_alt (s : State) (r : Reg8) (v : Byte) : (s.setReg r v).alt = s.alt := rfl
@[simp] theorem State.setReg_ix (s : State) (r : Reg8) (v : Byte) : (s.setReg r v).ix = s.ix := rfl
@[simp] theorem State.setReg_iy (s : State) (r : Reg8) (v : Byte) : (s.setReg r v).iy = s.iy := rfl
@[simp] theorem State.setReg_sp (s : State) (r : Reg8) (v : Byte) : (s.setReg r v).sp = s.sp := rfl
@[simp] theorem State.setReg_pc (s : State) (r : Reg8) (v : Byte) : (s.setReg r v).pc = s.pc := rfl
@[simp] theorem State.setReg_i (s : State) (r : Reg8) (v : Byte) : (s.setReg r v).i = s.i := rfl
@[simp] theorem State.setReg_r (s : State) (r : Reg8) (v : Byte) : (s.setReg r v).r = s.r := rfl
@[simp] theorem State.setReg_iff1 (s : State) (r : Reg8) (v : Byte) : (s.setReg r v).iff1 = s.iff1 := rfl
@[simp] theorem State.setReg_iff2 (s : State) (r : Reg8) (v : Byte) : (s.setReg r v).iff2 = s.iff2 := rfl
@[simp] theorem State.setReg_im (s : State) (r : Reg8) (v : Byte) : (s.setReg r v).im = s.im := rfl
@[simp] theorem State.setReg_tstates (s : State) (r : Reg8) (v : Byte) : (s.setReg r v).tstates = s.tstates := rfl
@[simp] theorem State.setReg_mem (s : State) (r : Reg8) (v : Byte) : (s.setReg r v).mem = s.mem := rfl
@[simp] theorem State.setReg_halted (s : State) (r : Reg8) (v : Byte) : (s.setReg r v).halted = s.halted := rfl
@[simp] theorem State.setReg_request (s : State) (r : Reg8) (v : Byte) : (s.setReg r v).request = s.request := rfl
@[simp] theorem State.setReg_speed (s : State) (r : Reg8) (v : Byte) : (s.setReg r v).speed = s.speed := rfl
@[simp] theorem State.setReg_run (s : State) (r : Reg8) (v : Byte) : (s.setReg r v).run = s.run := rfl
@[simp] theorem State.setReg_pfx (s : State) (r : Reg8) (v : Byte) : (s.setReg r v).pfx = s.pfx := rfl
@[simp] theorem State.setReg_params (s : State) (r : Reg8) (v : Byte) : (s.setReg r v).params = s.params := rfl
@[simp] theorem State.setReg_inbox (s : State) (r : Reg8) (v : Byte) : (s.setReg r v).inbox = s.inbox := rfl
@[simp] theorem State.setReg_draws (s : State) (r : Reg8) (v : Byte) : (s.setReg r v).draws = s.draws := rfl

@[simp] theorem State.popped_main (s : State) : (s.popped).main = s.main := rfl
@[simp] theorem State.popped_alt (s : State) : (s.popped).alt = s.alt := rfl
@[simp] theorem State.popped_ix (s : State) : (s.popped).ix = s.ix := rfl
@[simp] theorem State.popped_iy (s : State) : (s.popped).iy = s.iy := rfl
@[simp] theorem State.popped_sp (s : State) : (s.popped).sp = s.sp + 2 := rfl
@[simp] theorem State.popped_pc (s : State) : (s.popped).pc = s.pc := rfl
@[simp] theorem State.popped_i (s : State) : (s.popped).i = s.i := rfl
@[simp] theorem State.popped_r (s : State) : (s.popped).r = s.r := rfl
@[simp] theorem State.popped_iff1 (s : State) : (s.popped).iff1 = s.iff1 := rfl
@[simp] theorem State.popped_iff2 (s : State) : (s.popped).iff2 = s.iff2 := rfl
@[simp] theorem State.popped_im (s : State) : (s.popped).im = s.im := rfl
@[simp] theorem State.popped_tstates (s : State) : (s.popped).tstates = s.tstates := rfl
@[simp] theorem State.popped_mem (s : State) : (s.popped).mem = s.mem := rfl
@[simp] theorem State.popped_halted (s : State) : (s.popped).halted = s.halted := rfl
@[simp] theorem State.popped_request (s : State) : (s.popped).request = s.request := rfl
@[simp] theorem State.popped_speed (s : State) : (s.popped).speed = s.speed := rfl
@[simp] theorem State.popped_run (s : State) : (s.popped).run = s.run := rfl
@[simp] theorem State.popped_pfx (s : State) : (s.popped).pfx = s.pfx := rfl
@[simp] theorem State.popped_params (s : State) : (s.popped).params = s.params := rfl
@[simp] theorem State.popped_inbox (s : State) : (s.popped).inbox = s.inbox := rfl
@[simp] theorem State.popped_draws (s : State) : (s.popped).draws = s.draws := rfl

@[simp] theorem State.jumpBy_main (s : State) (e : Byte) : (s.jumpBy e).main = s.main := rfl
@[simp] theorem State.jumpBy_alt (s : State) (e : Byte) : (s.jumpBy e).alt = s.alt := rfl
@[simp] theorem State.jumpBy_ix (s : State) (e : Byte) : (s.jumpBy e).ix = s.ix := rfl
@[simp] theorem State.jumpBy_iy (s : State) (e : Byte) : (s.jumpBy e).iy = s.iy := rfl
@[simp] theorem State.jumpBy_sp (s : State) (e : Byte) : (s.jumpBy e).sp = s.sp := rfl
@[simp] theorem State.jumpBy_pc (s : State) (e : Byte) : (s.jumpBy e).pc = s.pc + sext16 e := rfl
@[simp] theorem State.jumpBy_i (s : State) (e : Byte) : (s.jumpBy e).i = s.i := rfl
@[simp] theorem State.jumpBy_r (s : State) (e : Byte) : (s.jumpBy e).r = s.r := rfl
@[simp] theorem State.jumpBy_iff1 (s : State) (e : Byte) : (s.jumpBy e).iff1 = s.iff1 := rfl
@[simp] theorem State.jumpBy_iff2 (s : State) (e : Byte) : (s.jumpBy e).iff2 = s.iff2 := rfl
@[simp] theorem State.jumpBy_im (s : State) (e : Byte) : (s.jumpBy e).im = s.im := rfl
@[simp] theorem State.jumpBy_tstates (s : State) (e : Byte) : (s.jumpBy e).tstates = s.tstates := rfl
@[simp] theorem State.jumpBy_mem (s : State) (e : Byte) : (s.jumpBy e).mem = s.mem := rfl
@[simp] theorem State.jumpBy_halted (s : State) (e : Byte) : (s.jumpBy e).halted = s.halted := rfl
@[simp] theorem State.jumpBy_request (s : State) (e : Byte) : (s.jumpBy e).request = s.request := rfl
@[simp] theorem State.jumpBy_speed (s : State) (e : Byte) : (s.jumpBy e).speed = s.speed := rfl
@[simp] theorem State.jumpBy_run (s : State) (e : Byte) : (s.jumpBy e).run = s.run := rfl
@[simp] theorem State.jumpBy_pfx (s : State) (e : Byte) : (s.jumpBy e).pfx = s.pfx := rfl
@[simp] theorem State.jumpBy_params (s : State) (e : Byte) : (s.jumpBy e).params = s.params := rfl
@[simp] theorem State.jumpBy_inbox (s : State) (e : Byte) : (s.jumpBy e).inbox = s.inbox := rfl
@[simp] theorem State.jumpBy_draws (s : State) (e : Byte) : (s.jumpBy e).draws = s.draws := rfl

@[simp] theorem State.charged_main (s : State) (n : Count) : (s.charged n).main = s.main := rfl
@[simp] theorem State.charged_alt (s : State) (n : Count) : (s.charged n).alt = s.alt := rfl
@[simp] theorem State.charged_ix (s : State) (n : Count) : (s.charged n).ix = s.ix := rfl
@[simp] theorem State.charged_iy (s : State) (n : Count) : (s.charged n).iy = s.iy := rfl
@[simp] theorem State.charged_sp (s : State) (n : Count) : (s.charged n).sp = s.sp := rfl
@[simp] theorem State.charged_pc (s : State) (n : Count) : (s.charged n).pc = s.pc := rfl
@[simp] theorem State.charged_i (s : State) (n : Count) : (s.charged n).i = s.i := rfl
@[simp] theorem State.charged_r (s : State) (n : Count) : (s.charged n).r = s.r := rfl
@[simp] theorem State.charged_iff1 (s : State) (n : Count) : (s.charged n).iff1 = s.iff1 := rfl
@[simp] theorem State.charged_iff2 (s : State) (n : Count) : (s.charged n).iff2 = s.iff2 := rfl
@[simp] theorem State.charged_im (s : State) (n : Count) : (s.charged n).im = s.im := rfl
@[simp] theorem State.charged_tstates (s : State) (n : Count) : (s.charged n).tstates = s.tstates + n := rfl
@[simp] theorem State.charged_mem (s : State) (n : Count) : (s.charged n).mem = s.mem := rfl
@[simp] theorem State.charged_halted (s : State) (n : Count) : (s.charged n).halted = s.halted := rfl
@[simp] theorem State.charged_request (s : State) (n : Count) : (s.charged n).request = s.request := rfl
@[simp] theorem State.charged_speed (s : State) (n : Count) : (s.charged n).speed = s.speed := rfl
@[simp] theorem State.charged_run (s : State) (n : Count) : (s.charged n).run = s.run := rfl
@[simp] theorem State.charged_pfx (s : State) (n : Count) : (s.charged n).pfx = s.pfx := rfl
@[simp] theorem State.charged_params (s : State) (n : Count) : (s.charged n).params = s.params := rfl
@[simp] theorem State.charged_inbox (s : State) (n : Count) : (s.charged n).inbox = s.inbox := rfl
@[simp] theorem State.charged_draws (s : State) (n : Count) : (s.charged n).draws = s.draws := rfl

@[simp] theorem State.enterTrap_main (s : State) (k : TrapKind) : (s.enterTrap k).main = s.main := rfl
@[simp] theorem State.enterTrap_alt (s : State) (k : TrapKind) : (s.enterTrap k).alt = s.alt := rfl
@[simp] theorem State.enterTrap_ix (s : State) (k : TrapKind) : (s.enterTrap k).ix = s.ix := rfl
@[simp] theorem State.enterTrap_iy (s : State) (k : TrapKind) : (s.enterTrap k).iy = s.iy := rfl
@[simp] theorem State.enterTrap_sp (s : State) (k : TrapKind) : (s.enterTrap k).sp = s.sp := rfl
@[simp] theorem State.enterTrap_pc (s : State) (k : TrapKind) : (s.enterTrap k).pc = s.pc := rfl
@[simp] theorem State.enterTrap_i (s : State) (k : TrapKind) : (s.enterTrap k).i = s.i := rfl
@[simp] theorem State.enterTrap_r (s : State) (k : TrapKind) : (s.enterTrap k).r = s.r := rfl
@[simp] theorem State.enterTrap_iff1 (s : State) (k : TrapKind) : (s.enterTrap k).iff1 = s.iff1 := rfl
@[simp] theorem State.enterTrap_iff2 (s : State) (k : TrapKind) : (s.enterTrap k).iff2 = s.iff2 := rfl
@[simp] theorem State.enterTrap_im (s : State) (k : TrapKind) : (s.enterTrap k).im = s.im := rfl
@[simp] theorem State.enterTrap_tstates (s : State) (k : TrapKind) : (s.enterTrap k).tstates = s.tstates := rfl
@[simp] theorem State.enterTrap_mem (s : State) (k : TrapKind) : (s.enterTrap k).mem = s.mem := rfl
@[simp] theorem State.enterTrap_halted (s : State) (k : TrapKind) : (s.enterTrap k).halted = s.halted := rfl
@[simp] theorem State.enterTrap_request (s : State) (k : TrapKind) : (s.enterTrap k).request = s.request := rfl
@[simp] theorem State.enterTrap_speed (s : State) (k : TrapKind) : (s.enterTrap k).speed = s.speed := rfl
@[simp] theorem State.enterTrap_run (s : State) (k : TrapKind) : (s.enterTrap k).run = .trapWait k := rfl
@[simp] theorem State.enterTrap_pfx (s : State) (k : TrapKind) : (s.enterTrap k).pfx = s.pfx := rfl
@[simp] theorem State.enterTrap_params (s : State) (k : TrapKind) : (s.enterTrap k).params = s.params := rfl
@[simp] theorem State.enterTrap_inbox (s : State) (k : TrapKind) : (s.enterTrap k).inbox = s.inbox := rfl
@[simp] theorem State.enterTrap_draws (s : State) (k : TrapKind) : (s.enterTrap k).draws = s.draws := rfl

@[simp] theorem State.resetCore_main (s : State) : (s.resetCore).main = RegSet.zero := rfl
@[simp] theorem State.resetCore_alt (s : State) : (s.resetCore).alt = RegSet.zero := rfl
@[simp] theorem State.resetCore_ix (s : State) : (s.resetCore).ix = 0 := rfl
@[simp] theorem State.resetCore_iy (s : State) : (s.resetCore).iy = 0 := rfl
@[simp] theorem State.resetCore_sp (s : State) : (s.resetCore).sp = 0 := rfl
@[simp] theorem State.resetCore_pc (s : State) : (s.resetCore).pc = 0 := rfl
@[simp] theorem State.resetCore_i (s : State) : (s.resetCore).i = 0 := rfl
@[simp] theorem State.resetCore_r (s : State) : (s.resetCore).r = 0 := rfl
@[simp] theorem State.resetCore_iff1 (s : State) : (s.resetCore).iff1 = false := rfl
@[simp] theorem State.resetCore_iff2 (s : State) : (s.resetCore).iff2 = false := rfl
@[simp] theorem State.resetCore_im (s : State) : (s.resetCore).im = 0 := rfl
@[simp] theorem State.resetCore_tstates (s : State) : (s.resetCore).tstates = 0 := rfl
@[simp] theorem State.resetCore_mem (s : State) : (s.resetCore).mem = s.mem := rfl
@[simp] theorem State.resetCore_halted (s : State) : (s.resetCore).halted = false := rfl
@[simp] theorem State.resetCore_request (s : State) : (s.resetCore).request = s.request := rfl
@[simp] theorem State.resetCore_speed (s : State) : (s.resetCore).speed = s.speed := rfl
@[simp] theorem State.resetCore_run (s : State) : (s.resetCore).run = s.run := rfl
@[simp] theorem State.resetCore_pfx (s : State) : (s.resetCore).pfx = none := rfl
@[simp] theorem State.resetCore_params (s : State) : (s.resetCore).params = s.params := rfl
@[simp] theorem State.resetCore_inbox (s : State) : (s.resetCore).inbox = s.inbox := rfl
@[simp] theorem State.resetCore_draws (s : State) : (s.resetCore).draws = s.draws := rfl

@[simp] theorem State.portWrite_main (s : State) (hi lo v : Byte) : (s.portWrite hi lo v).main = s.main := rfl
@[simp] theorem State.portWrite_alt (s : State) (hi lo v : Byte) : (s.portWrite hi lo v).alt = s.alt := rfl
@[simp] theorem State.portWrite_ix (s : State) (hi lo v : Byte) : (s.portWrite hi lo v).ix = s.ix := rfl
@[simp] theorem State.portWrite_iy (s : State) (hi lo v : Byte) : (s.portWrite hi lo v).iy = s.iy := rfl
@[simp] theorem State.portWrite_sp (s : State) (hi lo v : Byte) : (s.portWrite hi lo v).sp = s.sp := rfl
@[simp] theorem State.portWrite_pc (s : State) (hi lo v : Byte) : (s.portWrite hi lo v).pc = s.pc := rfl
@[simp] theorem State.portWrite_i (s : State) (hi lo v : Byte) : (s.portWrite hi lo v).i = s.i := rfl
@[simp] theorem State.portWrite_r (s : State) (hi lo v : Byte) : (s.portWrite hi lo v).r = s.r := rfl
@[simp] theorem State.portWrite_iff1 (s : State) (hi lo v : Byte) : (s.portWrite hi lo v).iff1 = s.iff1 := rfl
@[simp] theorem State.portWrite_iff2 (s : State) (hi lo v : Byte) : (s.portWrite hi lo v).iff2 = s.iff2 := rfl
@[simp] theorem State.portWrite_im (s : State) (hi lo v : Byte) : (s.portWrite hi lo v).im = s.im := rfl
@[simp] theorem State.portWrite_tstates (s : State) (hi lo v : Byte) :
    (s.portWrite hi lo v).tstates = s.tstates := rfl
@[simp] theorem State.portWrite_mem (s : State) (hi lo v : Byte) : (s.portWrite hi lo v).mem = s.mem := rfl
@[simp] theorem State.portWrite_halted (s : State) (hi lo v : Byte) : (s.portWrite hi lo v).halted = s.halted := rfl
@[simp] theorem State.portWrite_request (s : State) (hi lo v : Byte) :
    (s.portWrite hi lo v).request = s.request := rfl
@[simp] theorem State.portWrite_speed (s : State) (hi lo v : Byte) : (s.portWrite hi lo v).speed = s.speed := rfl
@[simp] theorem State.portWrite_run (s : State) (hi lo v : Byte) : (s.portWrite hi lo v).run = s.run := rfl
@[simp] theorem State.portWrite_pfx (s : State) (hi lo v : Byte) : (s.portWrite hi lo v).pfx = s.pfx := rfl
@[simp] theorem State.portWrite_params (s : State) (hi lo v : Byte) : (s.portWrite hi lo v).params = s.params := rfl
@[simp] theorem State.portWrite_inbox (s : State) (hi lo v : Byte) : (s.portWrite hi lo v).inbox = s.inbox := rfl
@[simp] theorem State.portWrite_draws (s : State) (hi lo v : Byte) : (s.portWrite hi lo v).draws = s.draws := rfl

/-! ### Writes that choose a register: what they leave alone -/

@[simp] theorem State.setPair_alt (s : State) (p : Pair) (v : Word) :
    (s.setPair p v).alt = s.alt := by cases p <;> rfl
@[simp] theorem State.setPair_ix (s : State) (p : Pair) (v : Word) : (s.setPair p v).ix = s.ix := by cases p <;> rfl
@[simp] theorem State.setPair_iy (s : State) (p : Pair) (v : Word) : (s.setPair p v).iy = s.iy := by cases p <;> rfl
@[simp] theorem State.setPair_pc (s : State) (p : Pair) (v : Word) : (s.setPair p v).pc = s.pc := by cases p <;> rfl
@[simp] theorem State.setPair_i (s : State) (p : Pair) (v : Word) : (s.setPair p v).i = s.i := by cases p <;> rfl
@[simp] theorem State.setPair_r (s : State) (p : Pair) (v : Word) : (s.setPair p v).r = s.r := by cases p <;> rfl
@[simp] theorem State.setPair_iff1 (s : State) (p : Pair) (v : Word) :
    (s.setPair p v).iff1 = s.iff1 := by cases p <;> rfl
@[simp] theorem State.setPair_iff2 (s : State) (p : Pair) (v : Word) :
    (s.setPair p v).iff2 = s.iff2 := by cases p <;> rfl
@[simp] theorem State.setPair_im (s : State) (p : Pair) (v : Word) : (s.setPair p v).im = s.im := by cases p <;> rfl
@[simp] theorem State.setPair_tstates (s : State) (p : Pair) (v : Word) :
    (s.setPair p v).tstates = s.tstates := by cases p <;> rfl
@[simp] theorem State.setPair_mem (s : State) (p : Pair) (v : Word) :
    (s.setPair p v).mem = s.mem := by cases p <;> rfl
@[simp] theorem State.setPair_halted (s : State) (p : Pair) (v : Word) :
    (s.setPair p v).halted = s.halted := by cases p <;> rfl
@[simp] theorem State.setPair_request (s : State) (p : Pair) (v : Word) :
    (s.setPair p v).request = s.request := by cases p <;> rfl
@[simp] theorem State.setPair_speed (s : State) (p : Pair) (v : Word) :
    (s.setPair p v).speed = s.speed := by cases p <;> rfl
@[simp] theorem State.setPair_run (s : State) (p : Pair) (v : Word) :
    (s.setPair p v).run = s.run := by cases p <;> rfl
@[simp] theorem State.setPair_pfx (s : State) (p : Pair) (v : Word) :
    (s.setPair p v).pfx = s.pfx := by cases p <;> rfl
@[simp] theorem State.setPair_params (s : State) (p : Pair) (v : Word) :
    (s.setPair p v).params = s.params := by cases p <;> rfl
@[simp] theorem State.setPair_inbox (s : State) (p : Pair) (v : Word) :
    (s.setPair p v).inbox = s.inbox := by cases p <;> rfl
@[simp] theorem State.setPair_draws (s : State) (p : Pair) (v : Word) :
    (s.setPair p v).draws = s.draws := by cases p <;> rfl

@[simp] theorem State.setStackPair_alt (s : State) (q : StackPair) (v : Word) :
    (s.setStackPair q v).alt = s.alt := by cases q <;> rfl
@[simp] theorem State.setStackPair_ix (s : State) (q : StackPair) (v : Word) :
    (s.setStackPair q v).ix = s.ix := by cases q <;> rfl
@[simp] theorem State.setStackPair_iy (s : State) (q : StackPair) (v : Word) :
    (s.setStackPair q v).iy = s.iy := by cases q <;> rfl
@[simp] theorem State.setStackPair_sp (s : State) (q : StackPair) (v : Word) :
    (s.setStackPair q v).sp = s.sp := by cases q <;> rfl
@[simp] theorem State.setStackPair_pc (s : State) (q : StackPair) (v : Word) :
    (s.setStackPair q v).pc = s.pc := by cases q <;> rfl
@[simp] theorem State.setStackPair_i (s : State) (q : StackPair) (v : Word) :
    (s.setStackPair q v).i = s.i := by cases q <;> rfl
@[simp] theorem State.setStackPair_r (s : State) (q : StackPair) (v : Word) :
    (s.setStackPair q v).r = s.r := by cases q <;> rfl
@[simp] theorem State.setStackPair_iff1 (s : State) (q : StackPair) (v : Word) :
    (s.setStackPair q v).iff1 = s.iff1 := by cases q <;> rfl
@[simp] theorem State.setStackPair_iff2 (s : State) (q : StackPair) (v : Word) :
    (s.setStackPair q v).iff2 = s.iff2 := by cases q <;> rfl
@[simp] theorem State.setStackPair_im (s : State) (q : StackPair) (v : Word) :
    (s.setStackPair q v).im = s.im := by cases q <;> rfl
@[simp] theorem State.setStackPair_tstates (s : State) (q : StackPair) (v : Word) :
    (s.setStackPair q v).tstates = s.tstates := by cases q <;> rfl
@[simp] theorem State.setStackPair_mem (s : State) (q : StackPair) (v : Word) :
    (s.setStackPair q v).mem = s.mem := by cases q <;> rfl
@[simp] theorem State.setStackPair_halted (s : State) (q : StackPair) (v : Word) :
    (s.setStackPair q v).halted = s.halted := by cases q <;> rfl
@[simp] theorem State.setStackPair_request (s : State) (q : StackPair) (v : Word) :
    (s.setStackPair q v).request = s.request := by cases q <;> rfl
@[simp] theorem State.setStackPair_speed (s : State) (q : StackPair) (v : Word) :
    (s.setStackPair q v).speed = s.speed := by cases q <;> rfl
@[simp] theorem State.setStackPair_run (s : State) (q : StackPair) (v : Word) :
    (s.setStackPair q v).run = s.run := by cases q <;> rfl
@[simp] theorem State.setStackPair_pfx (s : State) (q : StackPair) (v : Word) :
    (s.setStackPair q v).pfx = s.pfx := by cases q <;> rfl
@[simp] theorem State.setStackPair_params (s : State) (q : StackPair) (v : Word) :
    (s.setStackPair q v).params = s.params := by cases q <;> rfl
@[simp] theorem State.setStackPair_inbox (s : State) (q : StackPair) (v : Word) :
    (s.setStackPair q v).inbox = s.inbox := by cases q <;> rfl
@[simp] theorem State.setStackPair_draws (s : State) (q : StackPair) (v : Word) :
    (s.setStackPair q v).draws = s.draws := by cases q <;> rfl

@[simp] theorem State.setXY_main (s : State) (x : IndexReg) (v : Word) :
    (s.setXY x v).main = s.main := by cases x <;> rfl
@[simp] theorem State.setXY_alt (s : State) (x : IndexReg) (v : Word) :
    (s.setXY x v).alt = s.alt := by cases x <;> rfl
@[simp] theorem State.setXY_sp (s : State) (x : IndexReg) (v : Word) : (s.setXY x v).sp = s.sp := by cases x <;> rfl
@[simp] theorem State.setXY_pc (s : State) (x : IndexReg) (v : Word) : (s.setXY x v).pc = s.pc := by cases x <;> rfl
@[simp] theorem State.setXY_i (s : State) (x : IndexReg) (v : Word) : (s.setXY x v).i = s.i := by cases x <;> rfl
@[simp] theorem State.setXY_r (s : State) (x : IndexReg) (v : Word) : (s.setXY x v).r = s.r := by cases x <;> rfl
@[simp] theorem State.setXY_iff1 (s : State) (x : IndexReg) (v : Word) :
    (s.setXY x v).iff1 = s.iff1 := by cases x <;> rfl
@[simp] theorem State.setXY_iff2 (s : State) (x : IndexReg) (v : Word) :
    (s.setXY x v).iff2 = s.iff2 := by cases x <;> rfl
@[simp] theorem State.setXY_im (s : State) (x : IndexReg) (v : Word) : (s.setXY x v).im = s.im := by cases x <;> rfl
@[simp] theorem State.setXY_tstates (s : State) (x : IndexReg) (v : Word) :
    (s.setXY x v).tstates = s.tstates := by cases x <;> rfl
@[simp] theorem State.setXY_mem (s : State) (x : IndexReg) (v : Word) :
    (s.setXY x v).mem = s.mem := by cases x <;> rfl
@[simp] theorem State.setXY_halted (s : State) (x : IndexReg) (v : Word) :
    (s.setXY x v).halted = s.halted := by cases x <;> rfl
@[simp] theorem State.setXY_request (s : State) (x : IndexReg) (v : Word) :
    (s.setXY x v).request = s.request := by cases x <;> rfl
@[simp] theorem State.setXY_speed (s : State) (x : IndexReg) (v : Word) :
    (s.setXY x v).speed = s.speed := by cases x <;> rfl
@[simp] theorem State.setXY_run (s : State) (x : IndexReg) (v : Word) :
    (s.setXY x v).run = s.run := by cases x <;> rfl
@[simp] theorem State.setXY_pfx (s : State) (x : IndexReg) (v : Word) :
    (s.setXY x v).pfx = s.pfx := by cases x <;> rfl
@[simp] theorem State.setXY_params (s : State) (x : IndexReg) (v : Word) :
    (s.setXY x v).params = s.params := by cases x <;> rfl
@[simp] theorem State.setXY_inbox (s : State) (x : IndexReg) (v : Word) :
    (s.setXY x v).inbox = s.inbox := by cases x <;> rfl
@[simp] theorem State.setXY_draws (s : State) (x : IndexReg) (v : Word) :
    (s.setXY x v).draws = s.draws := by cases x <;> rfl

@[simp] theorem State.setHalf_main (s : State) (x : IndexReg) (h : Half) (v : Byte) :
    (s.setHalf x h v).main = s.main := by cases x <;> cases h <;> rfl
@[simp] theorem State.setHalf_alt (s : State) (x : IndexReg) (h : Half) (v : Byte) :
    (s.setHalf x h v).alt = s.alt := by cases x <;> cases h <;> rfl
@[simp] theorem State.setHalf_sp (s : State) (x : IndexReg) (h : Half) (v : Byte) :
    (s.setHalf x h v).sp = s.sp := by cases x <;> cases h <;> rfl
@[simp] theorem State.setHalf_pc (s : State) (x : IndexReg) (h : Half) (v : Byte) :
    (s.setHalf x h v).pc = s.pc := by cases x <;> cases h <;> rfl
@[simp] theorem State.setHalf_i (s : State) (x : IndexReg) (h : Half) (v : Byte) :
    (s.setHalf x h v).i = s.i := by cases x <;> cases h <;> rfl
@[simp] theorem State.setHalf_r (s : State) (x : IndexReg) (h : Half) (v : Byte) :
    (s.setHalf x h v).r = s.r := by cases x <;> cases h <;> rfl
@[simp] theorem State.setHalf_iff1 (s : State) (x : IndexReg) (h : Half) (v : Byte) :
    (s.setHalf x h v).iff1 = s.iff1 := by cases x <;> cases h <;> rfl
@[simp] theorem State.setHalf_iff2 (s : State) (x : IndexReg) (h : Half) (v : Byte) :
    (s.setHalf x h v).iff2 = s.iff2 := by cases x <;> cases h <;> rfl
@[simp] theorem State.setHalf_im (s : State) (x : IndexReg) (h : Half) (v : Byte) :
    (s.setHalf x h v).im = s.im := by cases x <;> cases h <;> rfl
@[simp] theorem State.setHalf_tstates (s : State) (x : IndexReg) (h : Half) (v : Byte) :
    (s.setHalf x h v).tstates = s.tstates := by cases x <;> cases h <;> rfl
@[simp] theorem State.setHalf_mem (s : State) (x : IndexReg) (h : Half) (v : Byte) :
    (s.setHalf x h v).mem = s.mem := by cases x <;> cases h <;> rfl
@[simp] theorem State.setHalf_halted (s : State) (x : IndexReg) (h : Half) (v : Byte) :
    (s.setHalf x h v).halted = s.halted := by cases x <;> cases h <;> rfl
@[simp] theorem State.setHalf_request (s : State) (x : IndexReg) (h : Half) (v : Byte) :
    (s.setHalf x h v).request = s.request := by cases x <;> cases h <;> rfl
@[simp] theorem State.setHalf_speed (s : State) (x : IndexReg) (h : Half) (v : Byte) :
    (s.setHalf x h v).speed = s.speed := by cases x <;> cases h <;> rfl
@[simp] theorem State.setHalf_run (s : State) (x : IndexReg) (h : Half) (v : Byte) :
    (s.setHalf x h v).run = s.run := by cases x <;> cases h <;> rfl
@[simp] theorem State.setHalf_pfx (s : State) (x : IndexReg) (h : Half) (v : Byte) :
    (s.setHalf x h v).pfx = s.pfx := by cases x <;> cases h <;> rfl
@[simp] theorem State.setHalf_params (s : State) (x : IndexReg) (h : Half) (v : Byte) :
    (s.setHalf x h v).params = s.params := by cases x <;> cases h <;> rfl
@[simp] theorem State.setHalf_inbox (s : State) (x : IndexReg) (h : Half) (v : Byte) :
    (s.setHalf x h v).inbox = s.inbox := by cases x <;> cases h <;> rfl
@[simp] theorem State.setHalf_draws (s : State) (x : IndexReg) (h : Half) (v : Byte) :
    (s.setHalf x h v).draws = s.draws := by cases x <;> cases h <;> rfl

/-! ### Stores: what they leave alone -/

@[simp] theorem State.pokeByte_main (s : State) (a : Word) (v : Byte) : (s.pokeByte a v).main = s.main := rfl
@[simp] theorem State.pokeByte_alt (s : State) (a : Word) (v : Byte) : (s.pokeByte a v).alt = s.alt := rfl
@[simp] theorem State.pokeByte_ix (s : State) (a : Word) (v : Byte) : (s.pokeByte a v).ix = s.ix := rfl
@[simp] theorem State.pokeByte_iy (s : State) (a : Word) (v : Byte) : (s.pokeByte a v).iy = s.iy := rfl
@[simp] theorem State.pokeByte_sp (s : State) (a : Word) (v : Byte) : (s.pokeByte a v).sp = s.sp := rfl
@[simp] theorem State.pokeByte_pc (s : State) (a : Word) (v : Byte) : (s.pokeByte a v).pc = s.pc := rfl
@[simp] theorem State.pokeByte_i (s : State) (a : Word) (v : Byte) : (s.pokeByte a v).i = s.i := rfl
@[simp] theorem State.pokeByte_r (s : State) (a : Word) (v : Byte) : (s.pokeByte a v).r = s.r := rfl
@[simp] theorem State.pokeByte_iff1 (s : State) (a : Word) (v : Byte) : (s.pokeByte a v).iff1 = s.iff1 := rfl
@[simp] theorem State.pokeByte_iff2 (s : State) (a : Word) (v : Byte) : (s.pokeByte a v).iff2 = s.iff2 := rfl
@[simp] theorem State.pokeByte_im (s : State) (a : Word) (v : Byte) : (s.pokeByte a v).im = s.im := rfl
@[simp] theorem State.pokeByte_tstates (s : State) (a : Word) (v : Byte) : (s.pokeByte a v).tstates = s.tstates := rfl
@[simp] theorem State.pokeByte_halted (s : State) (a : Word) (v : Byte) : (s.pokeByte a v).halted = s.halted := rfl
@[simp] theorem State.pokeByte_request (s : State) (a : Word) (v : Byte) : (s.pokeByte a v).request = s.request := rfl
@[simp] theorem State.pokeByte_speed (s : State) (a : Word) (v : Byte) : (s.pokeByte a v).speed = s.speed := rfl
@[simp] theorem State.pokeByte_run (s : State) (a : Word) (v : Byte) : (s.pokeByte a v).run = s.run := rfl
@[simp] theorem State.pokeByte_pfx (s : State) (a : Word) (v : Byte) : (s.pokeByte a v).pfx = s.pfx := rfl
@[simp] theorem State.pokeByte_params (s : State) (a : Word) (v : Byte) : (s.pokeByte a v).params = s.params := rfl
@[simp] theorem State.pokeByte_inbox (s : State) (a : Word) (v : Byte) : (s.pokeByte a v).inbox = s.inbox := rfl
@[simp] theorem State.pokeByte_draws (s : State) (a : Word) (v : Byte) : (s.pokeByte a v).draws = s.draws := rfl

@[simp] theorem State.writeByte_main (s : State) (a : Word) (v : Byte) :
    (s.writeByte a v).main = s.main := by unfold State.writeByte; split <;> rfl
@[simp] theorem State.writeByte_alt (s : State) (a : Word) (v : Byte) :
    (s.writeByte a v).alt = s.alt := by unfold State.writeByte; split <;> rfl
@[simp] theorem State.writeByte_ix (s : State) (a : Word) (v : Byte) :
    (s.writeByte a v).ix = s.ix := by unfold State.writeByte; split <;> rfl
@[simp] theorem State.writeByte_iy (s : State) (a : Word) (v : Byte) :
    (s.writeByte a v).iy = s.iy := by unfold State.writeByte; split <;> rfl
@[simp] theorem State.writeByte_sp (s : State) (a : Word) (v : Byte) :
    (s.writeByte a v).sp = s.sp := by unfold State.writeByte; split <;> rfl
@[simp] theorem State.writeByte_pc (s : State) (a : Word) (v : Byte) :
    (s.writeByte a v).pc = s.pc := by unfold State.writeByte; split <;> rfl
@[simp] theorem State.writeByte_i (s : State) (a : Word) (v : Byte) :
    (s.writeByte a v).i = s.i := by unfold State.writeByte; split <;> rfl
@[simp] theorem State.writeByte_r (s : State) (a : Word) (v : Byte) :
    (s.writeByte a v).r = s.r := by unfold State.writeByte; split <;> rfl
@[simp] theorem State.writeByte_iff1 (s : State) (a : Word) (v : Byte) :
    (s.writeByte a v).iff1 = s.iff1 := by unfold State.writeByte; split <;> rfl
@[simp] theorem State.writeByte_iff2 (s : State) (a : Word) (v : Byte) :
    (s.writeByte a v).iff2 = s.iff2 := by unfold State.writeByte; split <;> rfl
@[simp] theorem State.writeByte_im (s : State) (a : Word) (v : Byte) :
    (s.writeByte a v).im = s.im := by unfold State.writeByte; split <;> rfl
@[simp] theorem State.writeByte_tstates (s : State) (a : Word) (v : Byte) :
    (s.writeByte a v).tstates = s.tstates := by unfold State.writeByte; split <;> rfl
@[simp] theorem State.writeByte_halted (s : State) (a : Word) (v : Byte) :
    (s.writeByte a v).halted = s.halted := by unfold State.writeByte; split <;> rfl
@[simp] theorem State.writeByte_request (s : State) (a : Word) (v : Byte) :
    (s.writeByte a v).request = s.request := by unfold State.writeByte; split <;> rfl
@[simp] theorem State.writeByte_speed (s : State) (a : Word) (v : Byte) :
    (s.writeByte a v).speed = s.speed := by unfold State.writeByte; split <;> rfl
@[simp] theorem State.writeByte_run (s : State) (a : Word) (v : Byte) :
    (s.writeByte a v).run = s.run := by unfold State.writeByte; split <;> rfl
@[simp] theorem State.writeByte_pfx (s : State) (a : Word) (v : Byte) :
    (s.writeByte a v).pfx = s.pfx := by unfold State.writeByte; split <;> rfl
@[simp] theorem State.writeByte_params (s : State) (a : Word) (v : Byte) :
    (s.writeByte a v).params = s.params := by unfold State.writeByte; split <;> rfl
@[simp] theorem State.writeByte_inbox (s : State) (a : Word) (v : Byte) :
    (s.writeByte a v).inbox = s.inbox := by unfold State.writeByte; split <;> rfl
@[simp] theorem State.writeByte_draws (s : State) (a : Word) (v : Byte) :
    (s.writeByte a v).draws = s.draws := by unfold State.writeByte; split <;> rfl

@[simp] theorem State.writeWord_main (s : State) (a v : Word) :
    (s.writeWord a v).main = s.main := by simp [State.writeWord]
@[simp] theorem State.writeWord_alt (s : State) (a v : Word) :
    (s.writeWord a v).alt = s.alt := by simp [State.writeWord]
@[simp] theorem State.writeWord_ix (s : State) (a v : Word) : (s.writeWord a v).ix = s.ix := by simp [State.writeWord]
@[simp] theorem State.writeWord_iy (s : State) (a v : Word) : (s.writeWord a v).iy = s.iy := by simp [State.writeWord]
@[simp] theorem State.writeWord_sp (s : State) (a v : Word) : (s.writeWord a v).sp = s.sp := by simp [State.writeWord]
@[simp] theorem State.writeWord_pc (s : State) (a v : Word) : (s.writeWord a v).pc = s.pc := by simp [State.writeWord]
@[simp] theorem State.writeWord_i (s : State) (a v : Word) : (s.writeWord a v).i = s.i := by simp [State.writeWord]
@[simp] theorem State.writeWord_r (s : State) (a v : Word) : (s.writeWord a v).r = s.r := by simp [State.writeWord]
@[simp] theorem State.writeWord_iff1 (s : State) (a v : Word) :
    (s.writeWord a v).iff1 = s.iff1 := by simp [State.writeWord]
@[simp] theorem State.writeWord_iff2 (s : State) (a v : Word) :
    (s.writeWord a v).iff2 = s.iff2 := by simp [State.writeWord]
@[simp] theorem State.writeWord_im (s : State) (a v : Word) : (s.writeWord a v).im = s.im := by simp [State.writeWord]
@[simp] theorem State.writeWord_tstates (s : State) (a v : Word) :
    (s.writeWord a v).tstates = s.tstates := by simp [State.writeWord]
@[simp] theorem State.writeWord_halted (s : State) (a v : Word) :
    (s.writeWord a v).halted = s.halted := by simp [State.writeWord]
@[simp] theorem State.writeWord_request (s : State) (a v : Word) :
    (s.writeWord a v).request = s.request := by simp [State.writeWord]
@[simp] theorem State.writeWord_speed (s : State) (a v : Word) :
    (s.writeWord a v).speed = s.speed := by simp [State.writeWord]
@[simp] theorem State.writeWord_run (s : State) (a v : Word) :
    (s.writeWord a v).run = s.run := by simp [State.writeWord]
@[simp] theorem State.writeWord_pfx (s : State) (a v : Word) :
    (s.writeWord a v).pfx = s.pfx := by simp [State.writeWord]
@[simp] theorem State.writeWord_params (s : State) (a v : Word) :
    (s.writeWord a v).params = s.params := by simp [State.writeWord]
@[simp] theorem State.writeWord_inbox (s : State) (a v : Word) :
    (s.writeWord a v).inbox = s.inbox := by simp [State.writeWord]
@[simp] theorem State.writeWord_draws (s : State) (a v : Word) :
    (s.writeWord a v).draws = s.draws := by simp [State.writeWord]

@[simp] theorem State.push16_main (s : State) (v : Word) : (s.push16 v).main = s.main := by simp [State.push16]
@[simp] theorem State.push16_alt (s : State) (v : Word) : (s.push16 v).alt = s.alt := by simp [State.push16]
@[simp] theorem State.push16_ix (s : State) (v : Word) : (s.push16 v).ix = s.ix := by simp [State.push16]
@[simp] theorem State.push16_iy (s : State) (v : Word) : (s.push16 v).iy = s.iy := by simp [State.push16]
@[simp] theorem State.push16_sp (s : State) (v : Word) : (s.push16 v).sp = s.sp - 2 := by simp [State.push16]
@[simp] theorem State.push16_pc (s : State) (v : Word) : (s.push16 v).pc = s.pc := by simp [State.push16]
@[simp] theorem State.push16_i (s : State) (v : Word) : (s.push16 v).i = s.i := by simp [State.push16]
@[simp] theorem State.push16_r (s : State) (v : Word) : (s.push16 v).r = s.r := by simp [State.push16]
@[simp] theorem State.push16_iff1 (s : State) (v : Word) : (s.push16 v).iff1 = s.iff1 := by simp [State.push16]
@[simp] theorem State.push16_iff2 (s : State) (v : Word) : (s.push16 v).iff2 = s.iff2 := by simp [State.push16]
@[simp] theorem State.push16_im (s : State) (v : Word) : (s.push16 v).im = s.im := by simp [State.push16]
@[simp] theorem State.push16_tstates (s : State) (v : Word) :
    (s.push16 v).tstates = s.tstates := by simp [State.push16]
@[simp] theorem State.push16_halted (s : State) (v : Word) : (s.push16 v).halted = s.halted := by simp [State.push16]
@[simp] theorem State.push16_request (s : State) (v : Word) :
    (s.push16 v).request = s.request := by simp [State.push16]
@[simp] theorem State.push16_speed (s : State) (v : Word) : (s.push16 v).speed = s.speed := by simp [State.push16]
@[simp] theorem State.push16_run (s : State) (v : Word) : (s.push16 v).run = s.run := by simp [State.push16]
@[simp] theorem State.push16_pfx (s : State) (v : Word) : (s.push16 v).pfx = s.pfx := by simp [State.push16]
@[simp] theorem State.push16_params (s : State) (v : Word) : (s.push16 v).params = s.params := by simp [State.push16]
@[simp] theorem State.push16_inbox (s : State) (v : Word) : (s.push16 v).inbox = s.inbox := by simp [State.push16]
@[simp] theorem State.push16_draws (s : State) (v : Word) : (s.push16 v).draws = s.draws := by simp [State.push16]

/-! ### Interrupt acceptance and return -/

@[simp] theorem State.acceptInterrupt_main (s : State) :
    (s.acceptInterrupt).main = s.main := by simp [State.acceptInterrupt]
@[simp] theorem State.acceptInterrupt_alt (s : State) :
    (s.acceptInterrupt).alt = s.alt := by simp [State.acceptInterrupt]
@[simp] theorem State.acceptInterrupt_ix (s : State) :
    (s.acceptInterrupt).ix = s.ix := by simp [State.acceptInterrupt]
@[simp] theorem State.acceptInterrupt_iy (s : State) :
    (s.acceptInterrupt).iy = s.iy := by simp [State.acceptInterrupt]
@[simp] theorem State.acceptInterrupt_sp (s : State) :
    (s.acceptInterrupt).sp = s.sp - 2 := by simp [State.acceptInterrupt]
@[simp] theorem State.acceptInterrupt_pc (s : State) :
    (s.acceptInterrupt).pc = interruptVector := by simp [State.acceptInterrupt]
@[simp] theorem State.acceptInterrupt_i (s : State) : (s.acceptInterrupt).i = s.i := by simp [State.acceptInterrupt]
@[simp] theorem State.acceptInterrupt_r (s : State) :
    (s.acceptInterrupt).r = s.r + 1 := by simp [State.acceptInterrupt]
@[simp] theorem State.acceptInterrupt_iff1 (s : State) :
    (s.acceptInterrupt).iff1 = false := by simp [State.acceptInterrupt]
@[simp] theorem State.acceptInterrupt_iff2 (s : State) :
    (s.acceptInterrupt).iff2 = false := by simp [State.acceptInterrupt]
@[simp] theorem State.acceptInterrupt_im (s : State) :
    (s.acceptInterrupt).im = s.im := by simp [State.acceptInterrupt]
@[simp] theorem State.acceptInterrupt_tstates (s : State) :
    (s.acceptInterrupt).tstates = s.tstates + Config.intAckT := by simp [State.acceptInterrupt]
@[simp] theorem State.acceptInterrupt_mem (s : State) :
    (s.acceptInterrupt).mem = (s.push16 s.pc).mem := by simp [State.acceptInterrupt]
@[simp] theorem State.acceptInterrupt_halted (s : State) :
    (s.acceptInterrupt).halted = false := by simp [State.acceptInterrupt]
@[simp] theorem State.acceptInterrupt_request (s : State) :
    (s.acceptInterrupt).request = s.request := by simp [State.acceptInterrupt]
@[simp] theorem State.acceptInterrupt_speed (s : State) :
    (s.acceptInterrupt).speed = s.speed := by simp [State.acceptInterrupt]
@[simp] theorem State.acceptInterrupt_run (s : State) :
    (s.acceptInterrupt).run = s.run := by simp [State.acceptInterrupt]
@[simp] theorem State.acceptInterrupt_pfx (s : State) :
    (s.acceptInterrupt).pfx = s.pfx := by simp [State.acceptInterrupt]
@[simp] theorem State.acceptInterrupt_params (s : State) :
    (s.acceptInterrupt).params = s.params := by simp [State.acceptInterrupt]
@[simp] theorem State.acceptInterrupt_inbox (s : State) :
    (s.acceptInterrupt).inbox = s.inbox := by simp [State.acceptInterrupt]
@[simp] theorem State.acceptInterrupt_draws (s : State) :
    (s.acceptInterrupt).draws = s.draws := by simp [State.acceptInterrupt]

@[simp] theorem State.returnFromInterrupt_main (s : State) : (s.returnFromInterrupt).main = s.main := rfl
@[simp] theorem State.returnFromInterrupt_alt (s : State) : (s.returnFromInterrupt).alt = s.alt := rfl
@[simp] theorem State.returnFromInterrupt_ix (s : State) : (s.returnFromInterrupt).ix = s.ix := rfl
@[simp] theorem State.returnFromInterrupt_iy (s : State) : (s.returnFromInterrupt).iy = s.iy := rfl
@[simp] theorem State.returnFromInterrupt_sp (s : State) : (s.returnFromInterrupt).sp = s.sp + 2 := rfl
@[simp] theorem State.returnFromInterrupt_pc (s : State) : (s.returnFromInterrupt).pc = s.popValue := rfl
@[simp] theorem State.returnFromInterrupt_i (s : State) : (s.returnFromInterrupt).i = s.i := rfl
@[simp] theorem State.returnFromInterrupt_r (s : State) : (s.returnFromInterrupt).r = s.r := rfl
@[simp] theorem State.returnFromInterrupt_iff1 (s : State) : (s.returnFromInterrupt).iff1 = s.iff2 := rfl
@[simp] theorem State.returnFromInterrupt_iff2 (s : State) : (s.returnFromInterrupt).iff2 = s.iff2 := rfl
@[simp] theorem State.returnFromInterrupt_im (s : State) : (s.returnFromInterrupt).im = s.im := rfl
@[simp] theorem State.returnFromInterrupt_tstates (s : State) : (s.returnFromInterrupt).tstates = s.tstates := rfl
@[simp] theorem State.returnFromInterrupt_mem (s : State) : (s.returnFromInterrupt).mem = s.mem := rfl
@[simp] theorem State.returnFromInterrupt_halted (s : State) : (s.returnFromInterrupt).halted = s.halted := rfl
@[simp] theorem State.returnFromInterrupt_request (s : State) : (s.returnFromInterrupt).request = s.request := rfl
@[simp] theorem State.returnFromInterrupt_speed (s : State) : (s.returnFromInterrupt).speed = s.speed := rfl
@[simp] theorem State.returnFromInterrupt_run (s : State) : (s.returnFromInterrupt).run = s.run := rfl
@[simp] theorem State.returnFromInterrupt_pfx (s : State) : (s.returnFromInterrupt).pfx = s.pfx := rfl
@[simp] theorem State.returnFromInterrupt_params (s : State) : (s.returnFromInterrupt).params = s.params := rfl
@[simp] theorem State.returnFromInterrupt_inbox (s : State) : (s.returnFromInterrupt).inbox = s.inbox := rfl
@[simp] theorem State.returnFromInterrupt_draws (s : State) : (s.returnFromInterrupt).draws = s.draws := rfl

/-! ### The effects of the families -/

@[simp] theorem State.returned_main (s : State) : (s.returned).main = s.main := rfl
@[simp] theorem State.returned_alt (s : State) : (s.returned).alt = s.alt := rfl
@[simp] theorem State.returned_ix (s : State) : (s.returned).ix = s.ix := rfl
@[simp] theorem State.returned_iy (s : State) : (s.returned).iy = s.iy := rfl
@[simp] theorem State.returned_sp (s : State) : (s.returned).sp = s.sp + 2 := rfl
@[simp] theorem State.returned_pc (s : State) : (s.returned).pc = s.popValue := rfl
@[simp] theorem State.returned_i (s : State) : (s.returned).i = s.i := rfl
@[simp] theorem State.returned_r (s : State) : (s.returned).r = s.r := rfl
@[simp] theorem State.returned_iff1 (s : State) : (s.returned).iff1 = s.iff1 := rfl
@[simp] theorem State.returned_iff2 (s : State) : (s.returned).iff2 = s.iff2 := rfl
@[simp] theorem State.returned_im (s : State) : (s.returned).im = s.im := rfl
@[simp] theorem State.returned_tstates (s : State) : (s.returned).tstates = s.tstates := rfl
@[simp] theorem State.returned_mem (s : State) : (s.returned).mem = s.mem := rfl
@[simp] theorem State.returned_halted (s : State) : (s.returned).halted = s.halted := rfl
@[simp] theorem State.returned_request (s : State) : (s.returned).request = s.request := rfl
@[simp] theorem State.returned_speed (s : State) : (s.returned).speed = s.speed := rfl
@[simp] theorem State.returned_run (s : State) : (s.returned).run = s.run := rfl
@[simp] theorem State.returned_pfx (s : State) : (s.returned).pfx = s.pfx := rfl
@[simp] theorem State.returned_params (s : State) : (s.returned).params = s.params := rfl
@[simp] theorem State.returned_inbox (s : State) : (s.returned).inbox = s.inbox := rfl
@[simp] theorem State.returned_draws (s : State) : (s.returned).draws = s.draws := rfl

@[simp] theorem State.callTo_main (s : State) (target : Word) :
    (s.callTo target).main = s.main := by simp [State.callTo]
@[simp] theorem State.callTo_alt (s : State) (target : Word) : (s.callTo target).alt = s.alt := by simp [State.callTo]
@[simp] theorem State.callTo_ix (s : State) (target : Word) : (s.callTo target).ix = s.ix := by simp [State.callTo]
@[simp] theorem State.callTo_iy (s : State) (target : Word) : (s.callTo target).iy = s.iy := by simp [State.callTo]
@[simp] theorem State.callTo_sp (s : State) (target : Word) :
    (s.callTo target).sp = s.sp - 2 := by simp [State.callTo]
@[simp] theorem State.callTo_pc (s : State) (target : Word) : (s.callTo target).pc = target := by simp [State.callTo]
@[simp] theorem State.callTo_i (s : State) (target : Word) : (s.callTo target).i = s.i := by simp [State.callTo]
@[simp] theorem State.callTo_r (s : State) (target : Word) : (s.callTo target).r = s.r := by simp [State.callTo]
@[simp] theorem State.callTo_iff1 (s : State) (target : Word) :
    (s.callTo target).iff1 = s.iff1 := by simp [State.callTo]
@[simp] theorem State.callTo_iff2 (s : State) (target : Word) :
    (s.callTo target).iff2 = s.iff2 := by simp [State.callTo]
@[simp] theorem State.callTo_im (s : State) (target : Word) : (s.callTo target).im = s.im := by simp [State.callTo]
@[simp] theorem State.callTo_tstates (s : State) (target : Word) :
    (s.callTo target).tstates = s.tstates := by simp [State.callTo]
@[simp] theorem State.callTo_mem (s : State) (target : Word) :
    (s.callTo target).mem = (s.push16 s.pc).mem := by simp [State.callTo]
@[simp] theorem State.callTo_halted (s : State) (target : Word) :
    (s.callTo target).halted = s.halted := by simp [State.callTo]
@[simp] theorem State.callTo_request (s : State) (target : Word) :
    (s.callTo target).request = s.request := by simp [State.callTo]
@[simp] theorem State.callTo_speed (s : State) (target : Word) :
    (s.callTo target).speed = s.speed := by simp [State.callTo]
@[simp] theorem State.callTo_run (s : State) (target : Word) : (s.callTo target).run = s.run := by simp [State.callTo]
@[simp] theorem State.callTo_pfx (s : State) (target : Word) : (s.callTo target).pfx = s.pfx := by simp [State.callTo]
@[simp] theorem State.callTo_params (s : State) (target : Word) :
    (s.callTo target).params = s.params := by simp [State.callTo]
@[simp] theorem State.callTo_inbox (s : State) (target : Word) :
    (s.callTo target).inbox = s.inbox := by simp [State.callTo]
@[simp] theorem State.callTo_draws (s : State) (target : Word) :
    (s.callTo target).draws = s.draws := by simp [State.callTo]

@[simp] theorem State.aluA_alt (s : State) (op : AluOp) (v : Byte) : (s.aluA op v).alt = s.alt := rfl
@[simp] theorem State.aluA_ix (s : State) (op : AluOp) (v : Byte) : (s.aluA op v).ix = s.ix := rfl
@[simp] theorem State.aluA_iy (s : State) (op : AluOp) (v : Byte) : (s.aluA op v).iy = s.iy := rfl
@[simp] theorem State.aluA_sp (s : State) (op : AluOp) (v : Byte) : (s.aluA op v).sp = s.sp := rfl
@[simp] theorem State.aluA_pc (s : State) (op : AluOp) (v : Byte) : (s.aluA op v).pc = s.pc := rfl
@[simp] theorem State.aluA_i (s : State) (op : AluOp) (v : Byte) : (s.aluA op v).i = s.i := rfl
@[simp] theorem State.aluA_r (s : State) (op : AluOp) (v : Byte) : (s.aluA op v).r = s.r := rfl
@[simp] theorem State.aluA_iff1 (s : State) (op : AluOp) (v : Byte) : (s.aluA op v).iff1 = s.iff1 := rfl
@[simp] theorem State.aluA_iff2 (s : State) (op : AluOp) (v : Byte) : (s.aluA op v).iff2 = s.iff2 := rfl
@[simp] theorem State.aluA_im (s : State) (op : AluOp) (v : Byte) : (s.aluA op v).im = s.im := rfl
@[simp] theorem State.aluA_tstates (s : State) (op : AluOp) (v : Byte) : (s.aluA op v).tstates = s.tstates := rfl
@[simp] theorem State.aluA_mem (s : State) (op : AluOp) (v : Byte) : (s.aluA op v).mem = s.mem := rfl
@[simp] theorem State.aluA_halted (s : State) (op : AluOp) (v : Byte) : (s.aluA op v).halted = s.halted := rfl
@[simp] theorem State.aluA_request (s : State) (op : AluOp) (v : Byte) : (s.aluA op v).request = s.request := rfl
@[simp] theorem State.aluA_speed (s : State) (op : AluOp) (v : Byte) : (s.aluA op v).speed = s.speed := rfl
@[simp] theorem State.aluA_run (s : State) (op : AluOp) (v : Byte) : (s.aluA op v).run = s.run := rfl
@[simp] theorem State.aluA_pfx (s : State) (op : AluOp) (v : Byte) : (s.aluA op v).pfx = s.pfx := rfl
@[simp] theorem State.aluA_params (s : State) (op : AluOp) (v : Byte) : (s.aluA op v).params = s.params := rfl
@[simp] theorem State.aluA_inbox (s : State) (op : AluOp) (v : Byte) : (s.aluA op v).inbox = s.inbox := rfl
@[simp] theorem State.aluA_draws (s : State) (op : AluOp) (v : Byte) : (s.aluA op v).draws = s.draws + 1 := rfl

@[simp] theorem State.incFlagged_alt (s : State) (v : Byte) : (s.incFlagged v).alt = s.alt := rfl
@[simp] theorem State.incFlagged_ix (s : State) (v : Byte) : (s.incFlagged v).ix = s.ix := rfl
@[simp] theorem State.incFlagged_iy (s : State) (v : Byte) : (s.incFlagged v).iy = s.iy := rfl
@[simp] theorem State.incFlagged_sp (s : State) (v : Byte) : (s.incFlagged v).sp = s.sp := rfl
@[simp] theorem State.incFlagged_pc (s : State) (v : Byte) : (s.incFlagged v).pc = s.pc := rfl
@[simp] theorem State.incFlagged_i (s : State) (v : Byte) : (s.incFlagged v).i = s.i := rfl
@[simp] theorem State.incFlagged_r (s : State) (v : Byte) : (s.incFlagged v).r = s.r := rfl
@[simp] theorem State.incFlagged_iff1 (s : State) (v : Byte) : (s.incFlagged v).iff1 = s.iff1 := rfl
@[simp] theorem State.incFlagged_iff2 (s : State) (v : Byte) : (s.incFlagged v).iff2 = s.iff2 := rfl
@[simp] theorem State.incFlagged_im (s : State) (v : Byte) : (s.incFlagged v).im = s.im := rfl
@[simp] theorem State.incFlagged_tstates (s : State) (v : Byte) : (s.incFlagged v).tstates = s.tstates := rfl
@[simp] theorem State.incFlagged_mem (s : State) (v : Byte) : (s.incFlagged v).mem = s.mem := rfl
@[simp] theorem State.incFlagged_halted (s : State) (v : Byte) : (s.incFlagged v).halted = s.halted := rfl
@[simp] theorem State.incFlagged_request (s : State) (v : Byte) : (s.incFlagged v).request = s.request := rfl
@[simp] theorem State.incFlagged_speed (s : State) (v : Byte) : (s.incFlagged v).speed = s.speed := rfl
@[simp] theorem State.incFlagged_run (s : State) (v : Byte) : (s.incFlagged v).run = s.run := rfl
@[simp] theorem State.incFlagged_pfx (s : State) (v : Byte) : (s.incFlagged v).pfx = s.pfx := rfl
@[simp] theorem State.incFlagged_params (s : State) (v : Byte) : (s.incFlagged v).params = s.params := rfl
@[simp] theorem State.incFlagged_inbox (s : State) (v : Byte) : (s.incFlagged v).inbox = s.inbox := rfl
@[simp] theorem State.incFlagged_draws (s : State) (v : Byte) : (s.incFlagged v).draws = s.draws + 1 := rfl

@[simp] theorem State.decFlagged_alt (s : State) (v : Byte) : (s.decFlagged v).alt = s.alt := rfl
@[simp] theorem State.decFlagged_ix (s : State) (v : Byte) : (s.decFlagged v).ix = s.ix := rfl
@[simp] theorem State.decFlagged_iy (s : State) (v : Byte) : (s.decFlagged v).iy = s.iy := rfl
@[simp] theorem State.decFlagged_sp (s : State) (v : Byte) : (s.decFlagged v).sp = s.sp := rfl
@[simp] theorem State.decFlagged_pc (s : State) (v : Byte) : (s.decFlagged v).pc = s.pc := rfl
@[simp] theorem State.decFlagged_i (s : State) (v : Byte) : (s.decFlagged v).i = s.i := rfl
@[simp] theorem State.decFlagged_r (s : State) (v : Byte) : (s.decFlagged v).r = s.r := rfl
@[simp] theorem State.decFlagged_iff1 (s : State) (v : Byte) : (s.decFlagged v).iff1 = s.iff1 := rfl
@[simp] theorem State.decFlagged_iff2 (s : State) (v : Byte) : (s.decFlagged v).iff2 = s.iff2 := rfl
@[simp] theorem State.decFlagged_im (s : State) (v : Byte) : (s.decFlagged v).im = s.im := rfl
@[simp] theorem State.decFlagged_tstates (s : State) (v : Byte) : (s.decFlagged v).tstates = s.tstates := rfl
@[simp] theorem State.decFlagged_mem (s : State) (v : Byte) : (s.decFlagged v).mem = s.mem := rfl
@[simp] theorem State.decFlagged_halted (s : State) (v : Byte) : (s.decFlagged v).halted = s.halted := rfl
@[simp] theorem State.decFlagged_request (s : State) (v : Byte) : (s.decFlagged v).request = s.request := rfl
@[simp] theorem State.decFlagged_speed (s : State) (v : Byte) : (s.decFlagged v).speed = s.speed := rfl
@[simp] theorem State.decFlagged_run (s : State) (v : Byte) : (s.decFlagged v).run = s.run := rfl
@[simp] theorem State.decFlagged_pfx (s : State) (v : Byte) : (s.decFlagged v).pfx = s.pfx := rfl
@[simp] theorem State.decFlagged_params (s : State) (v : Byte) : (s.decFlagged v).params = s.params := rfl
@[simp] theorem State.decFlagged_inbox (s : State) (v : Byte) : (s.decFlagged v).inbox = s.inbox := rfl
@[simp] theorem State.decFlagged_draws (s : State) (v : Byte) : (s.decFlagged v).draws = s.draws + 1 := rfl

@[simp] theorem State.rotFlagged_alt (s : State) (op : RotOp) (v : Byte) : (s.rotFlagged op v).alt = s.alt := rfl
@[simp] theorem State.rotFlagged_ix (s : State) (op : RotOp) (v : Byte) : (s.rotFlagged op v).ix = s.ix := rfl
@[simp] theorem State.rotFlagged_iy (s : State) (op : RotOp) (v : Byte) : (s.rotFlagged op v).iy = s.iy := rfl
@[simp] theorem State.rotFlagged_sp (s : State) (op : RotOp) (v : Byte) : (s.rotFlagged op v).sp = s.sp := rfl
@[simp] theorem State.rotFlagged_pc (s : State) (op : RotOp) (v : Byte) : (s.rotFlagged op v).pc = s.pc := rfl
@[simp] theorem State.rotFlagged_i (s : State) (op : RotOp) (v : Byte) : (s.rotFlagged op v).i = s.i := rfl
@[simp] theorem State.rotFlagged_r (s : State) (op : RotOp) (v : Byte) : (s.rotFlagged op v).r = s.r := rfl
@[simp] theorem State.rotFlagged_iff1 (s : State) (op : RotOp) (v : Byte) : (s.rotFlagged op v).iff1 = s.iff1 := rfl
@[simp] theorem State.rotFlagged_iff2 (s : State) (op : RotOp) (v : Byte) : (s.rotFlagged op v).iff2 = s.iff2 := rfl
@[simp] theorem State.rotFlagged_im (s : State) (op : RotOp) (v : Byte) : (s.rotFlagged op v).im = s.im := rfl
@[simp] theorem State.rotFlagged_tstates (s : State) (op : RotOp) (v : Byte) :
    (s.rotFlagged op v).tstates = s.tstates := rfl
@[simp] theorem State.rotFlagged_mem (s : State) (op : RotOp) (v : Byte) : (s.rotFlagged op v).mem = s.mem := rfl
@[simp] theorem State.rotFlagged_halted (s : State) (op : RotOp) (v : Byte) :
    (s.rotFlagged op v).halted = s.halted := rfl
@[simp] theorem State.rotFlagged_request (s : State) (op : RotOp) (v : Byte) :
    (s.rotFlagged op v).request = s.request := rfl
@[simp] theorem State.rotFlagged_speed (s : State) (op : RotOp) (v : Byte) :
    (s.rotFlagged op v).speed = s.speed := rfl
@[simp] theorem State.rotFlagged_run (s : State) (op : RotOp) (v : Byte) : (s.rotFlagged op v).run = s.run := rfl
@[simp] theorem State.rotFlagged_pfx (s : State) (op : RotOp) (v : Byte) : (s.rotFlagged op v).pfx = s.pfx := rfl
@[simp] theorem State.rotFlagged_params (s : State) (op : RotOp) (v : Byte) :
    (s.rotFlagged op v).params = s.params := rfl
@[simp] theorem State.rotFlagged_inbox (s : State) (op : RotOp) (v : Byte) :
    (s.rotFlagged op v).inbox = s.inbox := rfl
@[simp] theorem State.rotFlagged_draws (s : State) (op : RotOp) (v : Byte) :
    (s.rotFlagged op v).draws = s.draws + 1 := rfl

@[simp] theorem State.bitFlagged_alt (s : State) (b : BitVec 3) (v : Byte) : (s.bitFlagged b v).alt = s.alt := rfl
@[simp] theorem State.bitFlagged_ix (s : State) (b : BitVec 3) (v : Byte) : (s.bitFlagged b v).ix = s.ix := rfl
@[simp] theorem State.bitFlagged_iy (s : State) (b : BitVec 3) (v : Byte) : (s.bitFlagged b v).iy = s.iy := rfl
@[simp] theorem State.bitFlagged_sp (s : State) (b : BitVec 3) (v : Byte) : (s.bitFlagged b v).sp = s.sp := rfl
@[simp] theorem State.bitFlagged_pc (s : State) (b : BitVec 3) (v : Byte) : (s.bitFlagged b v).pc = s.pc := rfl
@[simp] theorem State.bitFlagged_i (s : State) (b : BitVec 3) (v : Byte) : (s.bitFlagged b v).i = s.i := rfl
@[simp] theorem State.bitFlagged_r (s : State) (b : BitVec 3) (v : Byte) : (s.bitFlagged b v).r = s.r := rfl
@[simp] theorem State.bitFlagged_iff1 (s : State) (b : BitVec 3) (v : Byte) : (s.bitFlagged b v).iff1 = s.iff1 := rfl
@[simp] theorem State.bitFlagged_iff2 (s : State) (b : BitVec 3) (v : Byte) : (s.bitFlagged b v).iff2 = s.iff2 := rfl
@[simp] theorem State.bitFlagged_im (s : State) (b : BitVec 3) (v : Byte) : (s.bitFlagged b v).im = s.im := rfl
@[simp] theorem State.bitFlagged_tstates (s : State) (b : BitVec 3) (v : Byte) :
    (s.bitFlagged b v).tstates = s.tstates := rfl
@[simp] theorem State.bitFlagged_mem (s : State) (b : BitVec 3) (v : Byte) : (s.bitFlagged b v).mem = s.mem := rfl
@[simp] theorem State.bitFlagged_halted (s : State) (b : BitVec 3) (v : Byte) :
    (s.bitFlagged b v).halted = s.halted := rfl
@[simp] theorem State.bitFlagged_request (s : State) (b : BitVec 3) (v : Byte) :
    (s.bitFlagged b v).request = s.request := rfl
@[simp] theorem State.bitFlagged_speed (s : State) (b : BitVec 3) (v : Byte) :
    (s.bitFlagged b v).speed = s.speed := rfl
@[simp] theorem State.bitFlagged_run (s : State) (b : BitVec 3) (v : Byte) : (s.bitFlagged b v).run = s.run := rfl
@[simp] theorem State.bitFlagged_pfx (s : State) (b : BitVec 3) (v : Byte) : (s.bitFlagged b v).pfx = s.pfx := rfl
@[simp] theorem State.bitFlagged_params (s : State) (b : BitVec 3) (v : Byte) :
    (s.bitFlagged b v).params = s.params := rfl
@[simp] theorem State.bitFlagged_inbox (s : State) (b : BitVec 3) (v : Byte) :
    (s.bitFlagged b v).inbox = s.inbox := rfl
@[simp] theorem State.bitFlagged_draws (s : State) (b : BitVec 3) (v : Byte) :
    (s.bitFlagged b v).draws = s.draws + 1 := rfl

@[simp] theorem State.inFlagged_alt (s : State) (v : Byte) : (s.inFlagged v).alt = s.alt := rfl
@[simp] theorem State.inFlagged_ix (s : State) (v : Byte) : (s.inFlagged v).ix = s.ix := rfl
@[simp] theorem State.inFlagged_iy (s : State) (v : Byte) : (s.inFlagged v).iy = s.iy := rfl
@[simp] theorem State.inFlagged_sp (s : State) (v : Byte) : (s.inFlagged v).sp = s.sp := rfl
@[simp] theorem State.inFlagged_pc (s : State) (v : Byte) : (s.inFlagged v).pc = s.pc := rfl
@[simp] theorem State.inFlagged_i (s : State) (v : Byte) : (s.inFlagged v).i = s.i := rfl
@[simp] theorem State.inFlagged_r (s : State) (v : Byte) : (s.inFlagged v).r = s.r := rfl
@[simp] theorem State.inFlagged_iff1 (s : State) (v : Byte) : (s.inFlagged v).iff1 = s.iff1 := rfl
@[simp] theorem State.inFlagged_iff2 (s : State) (v : Byte) : (s.inFlagged v).iff2 = s.iff2 := rfl
@[simp] theorem State.inFlagged_im (s : State) (v : Byte) : (s.inFlagged v).im = s.im := rfl
@[simp] theorem State.inFlagged_tstates (s : State) (v : Byte) : (s.inFlagged v).tstates = s.tstates := rfl
@[simp] theorem State.inFlagged_mem (s : State) (v : Byte) : (s.inFlagged v).mem = s.mem := rfl
@[simp] theorem State.inFlagged_halted (s : State) (v : Byte) : (s.inFlagged v).halted = s.halted := rfl
@[simp] theorem State.inFlagged_request (s : State) (v : Byte) : (s.inFlagged v).request = s.request := rfl
@[simp] theorem State.inFlagged_speed (s : State) (v : Byte) : (s.inFlagged v).speed = s.speed := rfl
@[simp] theorem State.inFlagged_run (s : State) (v : Byte) : (s.inFlagged v).run = s.run := rfl
@[simp] theorem State.inFlagged_pfx (s : State) (v : Byte) : (s.inFlagged v).pfx = s.pfx := rfl
@[simp] theorem State.inFlagged_params (s : State) (v : Byte) : (s.inFlagged v).params = s.params := rfl
@[simp] theorem State.inFlagged_inbox (s : State) (v : Byte) : (s.inFlagged v).inbox = s.inbox := rfl
@[simp] theorem State.inFlagged_draws (s : State) (v : Byte) : (s.inFlagged v).draws = s.draws + 1 := rfl

@[simp] theorem State.negated_alt (s : State) : (s.negated).alt = s.alt := rfl
@[simp] theorem State.negated_ix (s : State) : (s.negated).ix = s.ix := rfl
@[simp] theorem State.negated_iy (s : State) : (s.negated).iy = s.iy := rfl
@[simp] theorem State.negated_sp (s : State) : (s.negated).sp = s.sp := rfl
@[simp] theorem State.negated_pc (s : State) : (s.negated).pc = s.pc := rfl
@[simp] theorem State.negated_i (s : State) : (s.negated).i = s.i := rfl
@[simp] theorem State.negated_r (s : State) : (s.negated).r = s.r := rfl
@[simp] theorem State.negated_iff1 (s : State) : (s.negated).iff1 = s.iff1 := rfl
@[simp] theorem State.negated_iff2 (s : State) : (s.negated).iff2 = s.iff2 := rfl
@[simp] theorem State.negated_im (s : State) : (s.negated).im = s.im := rfl
@[simp] theorem State.negated_tstates (s : State) : (s.negated).tstates = s.tstates := rfl
@[simp] theorem State.negated_mem (s : State) : (s.negated).mem = s.mem := rfl
@[simp] theorem State.negated_halted (s : State) : (s.negated).halted = s.halted := rfl
@[simp] theorem State.negated_request (s : State) : (s.negated).request = s.request := rfl
@[simp] theorem State.negated_speed (s : State) : (s.negated).speed = s.speed := rfl
@[simp] theorem State.negated_run (s : State) : (s.negated).run = s.run := rfl
@[simp] theorem State.negated_pfx (s : State) : (s.negated).pfx = s.pfx := rfl
@[simp] theorem State.negated_params (s : State) : (s.negated).params = s.params := rfl
@[simp] theorem State.negated_inbox (s : State) : (s.negated).inbox = s.inbox := rfl
@[simp] theorem State.negated_draws (s : State) : (s.negated).draws = s.draws + 1 := rfl

@[simp] theorem State.blockMove_alt (back : Bool) (s : State) :
    (s.blockMove back).alt = s.alt := by simp [State.blockMove]
@[simp] theorem State.blockMove_ix (back : Bool) (s : State) :
    (s.blockMove back).ix = s.ix := by simp [State.blockMove]
@[simp] theorem State.blockMove_iy (back : Bool) (s : State) :
    (s.blockMove back).iy = s.iy := by simp [State.blockMove]
@[simp] theorem State.blockMove_sp (back : Bool) (s : State) :
    (s.blockMove back).sp = s.sp := by simp [State.blockMove]
@[simp] theorem State.blockMove_pc (back : Bool) (s : State) :
    (s.blockMove back).pc = s.pc := by simp [State.blockMove]
@[simp] theorem State.blockMove_i (back : Bool) (s : State) : (s.blockMove back).i = s.i := by simp [State.blockMove]
@[simp] theorem State.blockMove_r (back : Bool) (s : State) : (s.blockMove back).r = s.r := by simp [State.blockMove]
@[simp] theorem State.blockMove_iff1 (back : Bool) (s : State) :
    (s.blockMove back).iff1 = s.iff1 := by simp [State.blockMove]
@[simp] theorem State.blockMove_iff2 (back : Bool) (s : State) :
    (s.blockMove back).iff2 = s.iff2 := by simp [State.blockMove]
@[simp] theorem State.blockMove_im (back : Bool) (s : State) :
    (s.blockMove back).im = s.im := by simp [State.blockMove]
@[simp] theorem State.blockMove_tstates (back : Bool) (s : State) :
    (s.blockMove back).tstates = s.tstates := by simp [State.blockMove]
@[simp] theorem State.blockMove_halted (back : Bool) (s : State) :
    (s.blockMove back).halted = s.halted := by simp [State.blockMove]
@[simp] theorem State.blockMove_request (back : Bool) (s : State) :
    (s.blockMove back).request = s.request := by simp [State.blockMove]
@[simp] theorem State.blockMove_speed (back : Bool) (s : State) :
    (s.blockMove back).speed = s.speed := by simp [State.blockMove]
@[simp] theorem State.blockMove_run (back : Bool) (s : State) :
    (s.blockMove back).run = s.run := by simp [State.blockMove]
@[simp] theorem State.blockMove_pfx (back : Bool) (s : State) :
    (s.blockMove back).pfx = s.pfx := by simp [State.blockMove]
@[simp] theorem State.blockMove_params (back : Bool) (s : State) :
    (s.blockMove back).params = s.params := by simp [State.blockMove]
@[simp] theorem State.blockMove_inbox (back : Bool) (s : State) :
    (s.blockMove back).inbox = s.inbox := by simp [State.blockMove]
@[simp] theorem State.blockMove_draws (back : Bool) (s : State) :
    (s.blockMove back).draws = s.draws + 1 := by simp [State.blockMove]

@[simp] theorem State.blockSearch_alt (back : Bool) (s : State) : (s.blockSearch back).alt = s.alt := rfl
@[simp] theorem State.blockSearch_ix (back : Bool) (s : State) : (s.blockSearch back).ix = s.ix := rfl
@[simp] theorem State.blockSearch_iy (back : Bool) (s : State) : (s.blockSearch back).iy = s.iy := rfl
@[simp] theorem State.blockSearch_sp (back : Bool) (s : State) : (s.blockSearch back).sp = s.sp := rfl
@[simp] theorem State.blockSearch_pc (back : Bool) (s : State) : (s.blockSearch back).pc = s.pc := rfl
@[simp] theorem State.blockSearch_i (back : Bool) (s : State) : (s.blockSearch back).i = s.i := rfl
@[simp] theorem State.blockSearch_r (back : Bool) (s : State) : (s.blockSearch back).r = s.r := rfl
@[simp] theorem State.blockSearch_iff1 (back : Bool) (s : State) : (s.blockSearch back).iff1 = s.iff1 := rfl
@[simp] theorem State.blockSearch_iff2 (back : Bool) (s : State) : (s.blockSearch back).iff2 = s.iff2 := rfl
@[simp] theorem State.blockSearch_im (back : Bool) (s : State) : (s.blockSearch back).im = s.im := rfl
@[simp] theorem State.blockSearch_tstates (back : Bool) (s : State) : (s.blockSearch back).tstates = s.tstates := rfl
@[simp] theorem State.blockSearch_mem (back : Bool) (s : State) : (s.blockSearch back).mem = s.mem := rfl
@[simp] theorem State.blockSearch_halted (back : Bool) (s : State) : (s.blockSearch back).halted = s.halted := rfl
@[simp] theorem State.blockSearch_request (back : Bool) (s : State) : (s.blockSearch back).request = s.request := rfl
@[simp] theorem State.blockSearch_speed (back : Bool) (s : State) : (s.blockSearch back).speed = s.speed := rfl
@[simp] theorem State.blockSearch_run (back : Bool) (s : State) : (s.blockSearch back).run = s.run := rfl
@[simp] theorem State.blockSearch_pfx (back : Bool) (s : State) : (s.blockSearch back).pfx = s.pfx := rfl
@[simp] theorem State.blockSearch_params (back : Bool) (s : State) : (s.blockSearch back).params = s.params := rfl
@[simp] theorem State.blockSearch_inbox (back : Bool) (s : State) : (s.blockSearch back).inbox = s.inbox := rfl
@[simp] theorem State.blockSearch_draws (back : Bool) (s : State) : (s.blockSearch back).draws = s.draws + 1 := rfl

@[simp] theorem State.blockIn_alt (back : Bool) (s : State) : (s.blockIn back).alt = s.alt := by simp [State.blockIn]
@[simp] theorem State.blockIn_ix (back : Bool) (s : State) : (s.blockIn back).ix = s.ix := by simp [State.blockIn]
@[simp] theorem State.blockIn_iy (back : Bool) (s : State) : (s.blockIn back).iy = s.iy := by simp [State.blockIn]
@[simp] theorem State.blockIn_sp (back : Bool) (s : State) : (s.blockIn back).sp = s.sp := by simp [State.blockIn]
@[simp] theorem State.blockIn_pc (back : Bool) (s : State) : (s.blockIn back).pc = s.pc := by simp [State.blockIn]
@[simp] theorem State.blockIn_i (back : Bool) (s : State) : (s.blockIn back).i = s.i := by simp [State.blockIn]
@[simp] theorem State.blockIn_r (back : Bool) (s : State) : (s.blockIn back).r = s.r := by simp [State.blockIn]
@[simp] theorem State.blockIn_iff1 (back : Bool) (s : State) :
    (s.blockIn back).iff1 = s.iff1 := by simp [State.blockIn]
@[simp] theorem State.blockIn_iff2 (back : Bool) (s : State) :
    (s.blockIn back).iff2 = s.iff2 := by simp [State.blockIn]
@[simp] theorem State.blockIn_im (back : Bool) (s : State) : (s.blockIn back).im = s.im := by simp [State.blockIn]
@[simp] theorem State.blockIn_tstates (back : Bool) (s : State) :
    (s.blockIn back).tstates = s.tstates := by simp [State.blockIn]
@[simp] theorem State.blockIn_halted (back : Bool) (s : State) :
    (s.blockIn back).halted = s.halted := by simp [State.blockIn]
@[simp] theorem State.blockIn_request (back : Bool) (s : State) :
    (s.blockIn back).request = s.request := by simp [State.blockIn]
@[simp] theorem State.blockIn_speed (back : Bool) (s : State) :
    (s.blockIn back).speed = s.speed := by simp [State.blockIn]
@[simp] theorem State.blockIn_run (back : Bool) (s : State) : (s.blockIn back).run = s.run := by simp [State.blockIn]
@[simp] theorem State.blockIn_pfx (back : Bool) (s : State) : (s.blockIn back).pfx = s.pfx := by simp [State.blockIn]
@[simp] theorem State.blockIn_params (back : Bool) (s : State) :
    (s.blockIn back).params = s.params := by simp [State.blockIn]
@[simp] theorem State.blockIn_inbox (back : Bool) (s : State) :
    (s.blockIn back).inbox = s.inbox := by simp [State.blockIn]
@[simp] theorem State.blockIn_draws (back : Bool) (s : State) :
    (s.blockIn back).draws = s.draws + 1 := by simp [State.blockIn]

@[simp] theorem State.blockOut_alt (back : Bool) (s : State) : (s.blockOut back).alt = s.alt := rfl
@[simp] theorem State.blockOut_ix (back : Bool) (s : State) : (s.blockOut back).ix = s.ix := rfl
@[simp] theorem State.blockOut_iy (back : Bool) (s : State) : (s.blockOut back).iy = s.iy := rfl
@[simp] theorem State.blockOut_sp (back : Bool) (s : State) : (s.blockOut back).sp = s.sp := rfl
@[simp] theorem State.blockOut_pc (back : Bool) (s : State) : (s.blockOut back).pc = s.pc := rfl
@[simp] theorem State.blockOut_i (back : Bool) (s : State) : (s.blockOut back).i = s.i := rfl
@[simp] theorem State.blockOut_r (back : Bool) (s : State) : (s.blockOut back).r = s.r := rfl
@[simp] theorem State.blockOut_iff1 (back : Bool) (s : State) : (s.blockOut back).iff1 = s.iff1 := rfl
@[simp] theorem State.blockOut_iff2 (back : Bool) (s : State) : (s.blockOut back).iff2 = s.iff2 := rfl
@[simp] theorem State.blockOut_im (back : Bool) (s : State) : (s.blockOut back).im = s.im := rfl
@[simp] theorem State.blockOut_tstates (back : Bool) (s : State) : (s.blockOut back).tstates = s.tstates := rfl
@[simp] theorem State.blockOut_mem (back : Bool) (s : State) : (s.blockOut back).mem = s.mem := rfl
@[simp] theorem State.blockOut_halted (back : Bool) (s : State) : (s.blockOut back).halted = s.halted := rfl
@[simp] theorem State.blockOut_request (back : Bool) (s : State) : (s.blockOut back).request = s.request := rfl
@[simp] theorem State.blockOut_speed (back : Bool) (s : State) : (s.blockOut back).speed = s.speed := rfl
@[simp] theorem State.blockOut_run (back : Bool) (s : State) : (s.blockOut back).run = s.run := rfl
@[simp] theorem State.blockOut_pfx (back : Bool) (s : State) : (s.blockOut back).pfx = s.pfx := rfl
@[simp] theorem State.blockOut_params (back : Bool) (s : State) : (s.blockOut back).params = s.params := rfl
@[simp] theorem State.blockOut_inbox (back : Bool) (s : State) : (s.blockOut back).inbox = s.inbox := rfl
@[simp] theorem State.blockOut_draws (back : Bool) (s : State) : (s.blockOut back).draws = s.draws + 1 := rfl

@[simp] theorem State.repeatIf_main (again : Bool) (s : State) :
    (s.repeatIf again).main = s.main := by cases again <;> rfl
@[simp] theorem State.repeatIf_alt (again : Bool) (s : State) :
    (s.repeatIf again).alt = s.alt := by cases again <;> rfl
@[simp] theorem State.repeatIf_ix (again : Bool) (s : State) : (s.repeatIf again).ix = s.ix := by cases again <;> rfl
@[simp] theorem State.repeatIf_iy (again : Bool) (s : State) : (s.repeatIf again).iy = s.iy := by cases again <;> rfl
@[simp] theorem State.repeatIf_sp (again : Bool) (s : State) : (s.repeatIf again).sp = s.sp := by cases again <;> rfl
@[simp] theorem State.repeatIf_pc (again : Bool) (s : State) :
    (s.repeatIf again).pc = if again then s.pc - 2 else s.pc := by cases again <;> rfl
@[simp] theorem State.repeatIf_i (again : Bool) (s : State) : (s.repeatIf again).i = s.i := by cases again <;> rfl
@[simp] theorem State.repeatIf_r (again : Bool) (s : State) : (s.repeatIf again).r = s.r := by cases again <;> rfl
@[simp] theorem State.repeatIf_iff1 (again : Bool) (s : State) :
    (s.repeatIf again).iff1 = s.iff1 := by cases again <;> rfl
@[simp] theorem State.repeatIf_iff2 (again : Bool) (s : State) :
    (s.repeatIf again).iff2 = s.iff2 := by cases again <;> rfl
@[simp] theorem State.repeatIf_im (again : Bool) (s : State) : (s.repeatIf again).im = s.im := by cases again <;> rfl
@[simp] theorem State.repeatIf_tstates (again : Bool) (s : State) :
    (s.repeatIf again).tstates = if again then s.tstates + 5 else s.tstates := by cases again <;> rfl
@[simp] theorem State.repeatIf_mem (again : Bool) (s : State) :
    (s.repeatIf again).mem = s.mem := by cases again <;> rfl
@[simp] theorem State.repeatIf_halted (again : Bool) (s : State) :
    (s.repeatIf again).halted = s.halted := by cases again <;> rfl
@[simp] theorem State.repeatIf_request (again : Bool) (s : State) :
    (s.repeatIf again).request = s.request := by cases again <;> rfl
@[simp] theorem State.repeatIf_speed (again : Bool) (s : State) :
    (s.repeatIf again).speed = s.speed := by cases again <;> rfl
@[simp] theorem State.repeatIf_run (again : Bool) (s : State) :
    (s.repeatIf again).run = s.run := by cases again <;> rfl
@[simp] theorem State.repeatIf_pfx (again : Bool) (s : State) :
    (s.repeatIf again).pfx = s.pfx := by cases again <;> rfl
@[simp] theorem State.repeatIf_params (again : Bool) (s : State) :
    (s.repeatIf again).params = s.params := by cases again <;> rfl
@[simp] theorem State.repeatIf_inbox (again : Bool) (s : State) :
    (s.repeatIf again).inbox = s.inbox := by cases again <;> rfl
@[simp] theorem State.repeatIf_draws (again : Bool) (s : State) :
    (s.repeatIf again).draws = s.draws := by cases again <;> rfl

/-! ### What a read or a choice depends on -/

theorem State.readByte_congr {s t : State} (h : t.mem = s.mem) (a : Word) : t.readByte a = s.readByte a := by
  simp [State.readByte, h]

theorem State.readWord_congr {s t : State} (h : t.mem = s.mem) (a : Word) : t.readWord a = s.readWord a := by
  simp [State.readWord, State.readByte_congr h]

theorem State.freeByte_congr {s t : State} (h : t.draws = s.draws) : t.freeByte = s.freeByte := by
  simp [State.freeByte, h]

theorem State.portRead_congr {s t : State} (h : t.draws = s.draws) (hi lo : Byte) :
    t.portRead hi lo = s.portRead hi lo := by
  simp [State.portRead, h]

theorem State.writable_congr {s t : State} (h : t.params = s.params) (a : Word) : t.writable a = s.writable a := by
  simp [State.writable, h]

@[simp] theorem State.takePrefix_readByte (s : State) (x : IndexReg) (a : Word) :
    (s.takePrefix x).readByte a = s.readByte a := rfl
@[simp] theorem State.takePrefix_readWord (s : State) (x : IndexReg) (a : Word) :
    (s.takePrefix x).readWord a = s.readWord a := rfl
@[simp] theorem State.takePrefix_writable (s : State) (x : IndexReg) (a : Word) :
    (s.takePrefix x).writable a = s.writable a := rfl
@[simp] theorem State.fetched_readByte (s : State) (len : Word) (m1 : Byte) (t : Count) (a : Word) :
    (s.fetched len m1 t).readByte a = s.readByte a := rfl
@[simp] theorem State.fetched_readWord (s : State) (len : Word) (m1 : Byte) (t : Count) (a : Word) :
    (s.fetched len m1 t).readWord a = s.readWord a := rfl
@[simp] theorem State.fetched_writable (s : State) (len : Word) (m1 : Byte) (t : Count) (a : Word) :
    (s.fetched len m1 t).writable a = s.writable a := rfl
@[simp] theorem State.drawn_readByte (s : State) (a : Word) : (s.drawn).readByte a = s.readByte a := rfl
@[simp] theorem State.drawn_readWord (s : State) (a : Word) : (s.drawn).readWord a = s.readWord a := rfl
@[simp] theorem State.drawn_writable (s : State) (a : Word) : (s.drawn).writable a = s.writable a := rfl
@[simp] theorem State.setFlags_readByte (s : State) (f : Flags) (a : Word) :
    (s.setFlags f).readByte a = s.readByte a := rfl
@[simp] theorem State.setFlags_readWord (s : State) (f : Flags) (a : Word) :
    (s.setFlags f).readWord a = s.readWord a := rfl
@[simp] theorem State.setFlags_writable (s : State) (f : Flags) (a : Word) :
    (s.setFlags f).writable a = s.writable a := rfl
@[simp] theorem State.setReg_readByte (s : State) (r : Reg8) (v : Byte) (a : Word) :
    (s.setReg r v).readByte a = s.readByte a := rfl
@[simp] theorem State.setReg_readWord (s : State) (r : Reg8) (v : Byte) (a : Word) :
    (s.setReg r v).readWord a = s.readWord a := rfl
@[simp] theorem State.setReg_writable (s : State) (r : Reg8) (v : Byte) (a : Word) :
    (s.setReg r v).writable a = s.writable a := rfl
@[simp] theorem State.popped_readByte (s : State) (a : Word) : (s.popped).readByte a = s.readByte a := rfl
@[simp] theorem State.popped_readWord (s : State) (a : Word) : (s.popped).readWord a = s.readWord a := rfl
@[simp] theorem State.popped_writable (s : State) (a : Word) : (s.popped).writable a = s.writable a := rfl
@[simp] theorem State.resetCore_readByte (s : State) (a : Word) : (s.resetCore).readByte a = s.readByte a := rfl
@[simp] theorem State.resetCore_readWord (s : State) (a : Word) : (s.resetCore).readWord a = s.readWord a := rfl
@[simp] theorem State.resetCore_writable (s : State) (a : Word) : (s.resetCore).writable a = s.writable a := rfl
@[simp] theorem State.portWrite_readByte (s : State) (hi lo v : Byte) (a : Word) :
    (s.portWrite hi lo v).readByte a = s.readByte a := rfl
@[simp] theorem State.portWrite_readWord (s : State) (hi lo v : Byte) (a : Word) :
    (s.portWrite hi lo v).readWord a = s.readWord a := rfl
@[simp] theorem State.portWrite_writable (s : State) (hi lo v : Byte) (a : Word) :
    (s.portWrite hi lo v).writable a = s.writable a := rfl
@[simp] theorem State.setPair_readByte (s : State) (p : Pair) (v : Word) (a : Word) :
    (s.setPair p v).readByte a = s.readByte a := by cases p <;> rfl
@[simp] theorem State.setPair_readWord (s : State) (p : Pair) (v : Word) (a : Word) :
    (s.setPair p v).readWord a = s.readWord a := by cases p <;> rfl
@[simp] theorem State.setPair_writable (s : State) (p : Pair) (v : Word) (a : Word) :
    (s.setPair p v).writable a = s.writable a := by cases p <;> rfl
@[simp] theorem State.setStackPair_readByte (s : State) (q : StackPair) (v : Word) (a : Word) :
    (s.setStackPair q v).readByte a = s.readByte a := by cases q <;> rfl
@[simp] theorem State.setStackPair_readWord (s : State) (q : StackPair) (v : Word) (a : Word) :
    (s.setStackPair q v).readWord a = s.readWord a := by cases q <;> rfl
@[simp] theorem State.setStackPair_writable (s : State) (q : StackPair) (v : Word) (a : Word) :
    (s.setStackPair q v).writable a = s.writable a := by cases q <;> rfl
@[simp] theorem State.setXY_readByte (s : State) (x : IndexReg) (v : Word) (a : Word) :
    (s.setXY x v).readByte a = s.readByte a := by cases x <;> rfl
@[simp] theorem State.setXY_readWord (s : State) (x : IndexReg) (v : Word) (a : Word) :
    (s.setXY x v).readWord a = s.readWord a := by cases x <;> rfl
@[simp] theorem State.setXY_writable (s : State) (x : IndexReg) (v : Word) (a : Word) :
    (s.setXY x v).writable a = s.writable a := by cases x <;> rfl
@[simp] theorem State.setHalf_readByte (s : State) (x : IndexReg) (h : Half) (v : Byte) (a : Word) :
    (s.setHalf x h v).readByte a = s.readByte a := by cases x <;> cases h <;> rfl
@[simp] theorem State.setHalf_readWord (s : State) (x : IndexReg) (h : Half) (v : Byte) (a : Word) :
    (s.setHalf x h v).readWord a = s.readWord a := by cases x <;> cases h <;> rfl
@[simp] theorem State.setHalf_writable (s : State) (x : IndexReg) (h : Half) (v : Byte) (a : Word) :
    (s.setHalf x h v).writable a = s.writable a := by cases x <;> cases h <;> rfl
@[simp] theorem State.writeByte_writable (s : State) (a : Word) (v : Byte) (b : Word) :
    (s.writeByte a v).writable b = s.writable b := by simp [State.writable]
@[simp] theorem State.writeWord_writable (s : State) (a v : Word) (b : Word) :
    (s.writeWord a v).writable b = s.writable b := by simp [State.writable]
@[simp] theorem State.push16_writable (s : State) (v : Word) (b : Word) :
    (s.push16 v).writable b = s.writable b := by simp [State.writable]
@[simp] theorem State.takePrefix_freeByte (s : State) (x : IndexReg) :
    (s.takePrefix x).freeByte = s.freeByte := State.freeByte_congr (by simp)
@[simp] theorem State.takePrefix_portRead (s : State) (x : IndexReg) (hi lo : Byte) :
    (s.takePrefix x).portRead hi lo = s.portRead hi lo := State.portRead_congr (by simp) hi lo
@[simp] theorem State.fetched_freeByte (s : State) (len : Word) (m1 : Byte) (t : Count) :
    (s.fetched len m1 t).freeByte = s.freeByte := State.freeByte_congr (by simp)
@[simp] theorem State.fetched_portRead (s : State) (len : Word) (m1 : Byte) (t : Count) (hi lo : Byte) :
    (s.fetched len m1 t).portRead hi lo = s.portRead hi lo := State.portRead_congr (by simp) hi lo
@[simp] theorem State.setReg_freeByte (s : State) (r : Reg8) (v : Byte) :
    (s.setReg r v).freeByte = s.freeByte := State.freeByte_congr (by simp)
@[simp] theorem State.setReg_portRead (s : State) (r : Reg8) (v : Byte) (hi lo : Byte) :
    (s.setReg r v).portRead hi lo = s.portRead hi lo := State.portRead_congr (by simp) hi lo
@[simp] theorem State.popped_freeByte (s : State) : (s.popped).freeByte = s.freeByte := State.freeByte_congr (by simp)
@[simp] theorem State.popped_portRead (s : State) (hi lo : Byte) :
    (s.popped).portRead hi lo = s.portRead hi lo := State.portRead_congr (by simp) hi lo
@[simp] theorem State.setPair_freeByte (s : State) (p : Pair) (v : Word) :
    (s.setPair p v).freeByte = s.freeByte := State.freeByte_congr (by simp)
@[simp] theorem State.setPair_portRead (s : State) (p : Pair) (v : Word) (hi lo : Byte) :
    (s.setPair p v).portRead hi lo = s.portRead hi lo := State.portRead_congr (by simp) hi lo
@[simp] theorem State.setXY_freeByte (s : State) (x : IndexReg) (v : Word) :
    (s.setXY x v).freeByte = s.freeByte := State.freeByte_congr (by simp)
@[simp] theorem State.setXY_portRead (s : State) (x : IndexReg) (v : Word) (hi lo : Byte) :
    (s.setXY x v).portRead hi lo = s.portRead hi lo := State.portRead_congr (by simp) hi lo
@[simp] theorem State.setHalf_freeByte (s : State) (x : IndexReg) (h : Half) (v : Byte) :
    (s.setHalf x h v).freeByte = s.freeByte := State.freeByte_congr (by simp)
@[simp] theorem State.setHalf_portRead (s : State) (x : IndexReg) (h : Half) (v : Byte) (hi lo : Byte) :
    (s.setHalf x h v).portRead hi lo = s.portRead hi lo := State.portRead_congr (by simp) hi lo
@[simp] theorem State.writeByte_freeByte (s : State) (a : Word) (v : Byte) :
    (s.writeByte a v).freeByte = s.freeByte := State.freeByte_congr (by simp)
@[simp] theorem State.writeByte_portRead (s : State) (a : Word) (v : Byte) (hi lo : Byte) :
    (s.writeByte a v).portRead hi lo = s.portRead hi lo := State.portRead_congr (by simp) hi lo
@[simp] theorem State.writeWord_freeByte (s : State) (a v : Word) :
    (s.writeWord a v).freeByte = s.freeByte := State.freeByte_congr (by simp)
@[simp] theorem State.writeWord_portRead (s : State) (a v : Word) (hi lo : Byte) :
    (s.writeWord a v).portRead hi lo = s.portRead hi lo := State.portRead_congr (by simp) hi lo
@[simp] theorem State.push16_freeByte (s : State) (v : Word) :
    (s.push16 v).freeByte = s.freeByte := State.freeByte_congr (by simp)
@[simp] theorem State.push16_portRead (s : State) (v : Word) (hi lo : Byte) :
    (s.push16 v).portRead hi lo = s.portRead hi lo := State.portRead_congr (by simp) hi lo

/-! ### Registers after a write -/

theorem RegSet.get_set (g : RegSet) (r q : Reg8) (v : Byte) : (g.set r v).get q = if q = r then v else g.get q := by
  cases r <;> cases q <;> rfl

theorem RegSet.set_f (g : RegSet) (r : Reg8) (v : Byte) : (g.set r v).f = g.f := by cases r <;> rfl

theorem State.reg_setReg (s : State) (r q : Reg8) (v : Byte) :
    (s.setReg r v).reg q = if q = r then v else s.reg q := RegSet.get_set s.main r q v

theorem hiByte_join (hi lo : Byte) : hiByte (join hi lo) = hi := by
  apply BitVec.eq_of_getLsbD_eq
  intro i h
  simp only [hiByte, join, BitVec.getLsbD_extractLsb', BitVec.getLsbD_append]
  simp [h]

theorem loByte_join (hi lo : Byte) : loByte (join hi lo) = lo := by
  apply BitVec.eq_of_getLsbD_eq
  intro i h
  simp only [loByte, join, BitVec.getLsbD_extractLsb', BitVec.getLsbD_append]
  simp [h]

theorem join_hi_lo (v : Word) : join (hiByte v) (loByte v) = v := by
  simp only [join, hiByte, loByte]
  apply BitVec.eq_of_getLsbD_eq
  intro i hi
  simp only [BitVec.getLsbD_append, BitVec.getLsbD_extractLsb']
  by_cases h : i < 8
  · simp [h]
  · have h8 : i - 8 < 8 := by omega
    simp [h, h8, show 8 + (i - 8) = i by omega]

theorem State.pair_setPair (s : State) (p : Pair) (v : Word) : (s.setPair p v).pair p = v := by
  cases p <;> simp [State.setPair, State.pair, RegSet.setBC, RegSet.setDE, RegSet.setHL, RegSet.bc, RegSet.de,
    RegSet.hl, join_hi_lo]

theorem State.xy_setXY (s : State) (x : IndexReg) (v : Word) : (s.setXY x v).xy x = v := by cases x <;> rfl

theorem Flags.ofByte_toByte (f : Flags) : Flags.ofByte f.toByte = f := by
  obtain ⟨s, z, y, h, x, pv, n, c⟩ := f
  revert s z y h x pv n c
  decide

theorem Flags.toByte_ofByte (v : Byte) : (Flags.ofByte v).toByte = v := by
  revert v
  decide

/-! ### An index prefix, taken now or in an earlier sub-step -/

theorem State.ownPrefix_of_taken {s : State} {x : IndexReg} (h : s.pfx = some x) : s.ownPrefix x = s := by
  simp [State.ownPrefix, h]

theorem State.ownPrefix_of_not_taken {s : State} {x : IndexReg} (h : s.pfx ≠ some x) :
    s.ownPrefix x = s.takePrefix x := by
  simp [State.ownPrefix, h]

@[simp] theorem State.ownPrefix_main (s : State) (x : IndexReg) :
    (s.ownPrefix x).main = s.main := by unfold State.ownPrefix; split <;> rfl
@[simp] theorem State.ownPrefix_alt (s : State) (x : IndexReg) :
    (s.ownPrefix x).alt = s.alt := by unfold State.ownPrefix; split <;> rfl
@[simp] theorem State.ownPrefix_ix (s : State) (x : IndexReg) :
    (s.ownPrefix x).ix = s.ix := by unfold State.ownPrefix; split <;> rfl
@[simp] theorem State.ownPrefix_iy (s : State) (x : IndexReg) :
    (s.ownPrefix x).iy = s.iy := by unfold State.ownPrefix; split <;> rfl
@[simp] theorem State.ownPrefix_sp (s : State) (x : IndexReg) :
    (s.ownPrefix x).sp = s.sp := by unfold State.ownPrefix; split <;> rfl
@[simp] theorem State.ownPrefix_i (s : State) (x : IndexReg) :
    (s.ownPrefix x).i = s.i := by unfold State.ownPrefix; split <;> rfl
@[simp] theorem State.ownPrefix_iff1 (s : State) (x : IndexReg) :
    (s.ownPrefix x).iff1 = s.iff1 := by unfold State.ownPrefix; split <;> rfl
@[simp] theorem State.ownPrefix_iff2 (s : State) (x : IndexReg) :
    (s.ownPrefix x).iff2 = s.iff2 := by unfold State.ownPrefix; split <;> rfl
@[simp] theorem State.ownPrefix_im (s : State) (x : IndexReg) :
    (s.ownPrefix x).im = s.im := by unfold State.ownPrefix; split <;> rfl
@[simp] theorem State.ownPrefix_mem (s : State) (x : IndexReg) :
    (s.ownPrefix x).mem = s.mem := by unfold State.ownPrefix; split <;> rfl
@[simp] theorem State.ownPrefix_halted (s : State) (x : IndexReg) :
    (s.ownPrefix x).halted = s.halted := by unfold State.ownPrefix; split <;> rfl
@[simp] theorem State.ownPrefix_request (s : State) (x : IndexReg) :
    (s.ownPrefix x).request = s.request := by unfold State.ownPrefix; split <;> rfl
@[simp] theorem State.ownPrefix_speed (s : State) (x : IndexReg) :
    (s.ownPrefix x).speed = s.speed := by unfold State.ownPrefix; split <;> rfl
@[simp] theorem State.ownPrefix_run (s : State) (x : IndexReg) :
    (s.ownPrefix x).run = s.run := by unfold State.ownPrefix; split <;> rfl
@[simp] theorem State.ownPrefix_params (s : State) (x : IndexReg) :
    (s.ownPrefix x).params = s.params := by unfold State.ownPrefix; split <;> rfl
@[simp] theorem State.ownPrefix_inbox (s : State) (x : IndexReg) :
    (s.ownPrefix x).inbox = s.inbox := by unfold State.ownPrefix; split <;> rfl
@[simp] theorem State.ownPrefix_draws (s : State) (x : IndexReg) :
    (s.ownPrefix x).draws = s.draws := by unfold State.ownPrefix; split <;> rfl

@[simp] theorem State.ownPrefix_readByte (s : State) (x : IndexReg) (a : Word) :
    (s.ownPrefix x).readByte a = s.readByte a := by unfold State.ownPrefix; split <;> rfl
@[simp] theorem State.ownPrefix_readWord (s : State) (x : IndexReg) (a : Word) :
    (s.ownPrefix x).readWord a = s.readWord a := by unfold State.ownPrefix; split <;> rfl
@[simp] theorem State.ownPrefix_writable (s : State) (x : IndexReg) (a : Word) :
    (s.ownPrefix x).writable a = s.writable a := by unfold State.ownPrefix; split <;> rfl
@[simp] theorem State.ownPrefix_freeByte (s : State) (x : IndexReg) :
    (s.ownPrefix x).freeByte = s.freeByte := State.freeByte_congr (by simp)

end Sys2Proof.Machine
end

