-- ==== Sys2Proof/Laws/Memory.lean ====
section
/-! SUPPORT. Memory: what a read gives after a write, that every memory operation keeps the canonical form, and that a
byte store writes exactly the alias class of its address. -/

namespace Sys2Proof.Machine

/-! ### The list of bytes -/

theorem Memory.get_insert (m : Memory) (a b : Nat) (v : Byte) :
    Memory.get (Memory.insert m a v) b = if b = a then v else Memory.get m b := by
  induction m with
  | nil =>
    by_cases h : a = b
    · simp [Memory.insert, Memory.get, h]
    · simp [Memory.insert, Memory.get, h, Ne.symm h]
  | cons c rest ih =>
    obtain ⟨k, w⟩ := c
    unfold Memory.insert
    split
    · by_cases h : a = b
      · simp [Memory.get, h]
      · simp [Memory.get, h, Ne.symm h]
    · split
      · subst k
        by_cases h : a = b
        · simp [Memory.get, h]
        · simp [Memory.get, h, Ne.symm h]
      · by_cases h : k = b
        · subst h
          have hne : k ≠ a := fun e => by omega
          simp [Memory.get, hne]
        · simp [Memory.get, h, ih]

theorem Memory.get_erase (m : Memory) (a b : Nat) :
    Memory.get (Memory.erase m a) b = if b = a then unlistedByte else Memory.get m b := by
  induction m with
  | nil => simp [Memory.erase, Memory.get]
  | cons c rest ih =>
    obtain ⟨k, w⟩ := c
    simp only [Memory.erase, List.filter_cons] at ih ⊢
    by_cases hk : k = a
    · subst hk
      simp only [bne_self_eq_false, Bool.false_eq_true, ↓reduceIte, ih, Memory.get]
      by_cases h : k = b
      · simp [h]
      · simp [h, Ne.symm h]
    · have : (k != a) = true := by simp [hk]
      simp only [this, ↓reduceIte, Memory.get, ih]
      by_cases h : k = b
      · subst h; simp [hk]
      · simp [h]

/-- A read after a write gives the value written there, and every other address reads as before. -/
theorem Memory.get_set (m : Memory) (a b : Nat) (v : Byte) :
    Memory.get (Memory.set m a v) b = if b = a then v else Memory.get m b := by
  unfold Memory.set
  split
  · rename_i h
    rw [Memory.get_erase, h]
  · rw [Memory.get_insert]

theorem Memory.get_setAll (as : List Word) (m : Memory) (b : Word) (v : Byte) :
    Memory.get (Memory.setAll m as v) b.toNat = if b ∈ as then v else Memory.get m b.toNat := by
  unfold Memory.setAll
  induction as generalizing m with
  | nil => simp
  | cons a rest ih =>
    rw [List.foldl_cons, ih, Memory.get_set]
    by_cases h : b = a
    · simp [h]
    · have : b.toNat ≠ a.toNat := fun e => h (BitVec.eq_of_toNat_eq e)
      simp [h, this]

/-! ### The canonical form -/

theorem Memory.wf_nil : Memory.wf [] := ⟨List.Pairwise.nil, by simp⟩

theorem Memory.mem_insert {m : Memory} {a : Nat} {v : Byte} {p : Nat × Byte} (h : p ∈ Memory.insert m a v) :
    p = (a, v) ∨ p ∈ m := by
  induction m with
  | nil => simpa [Memory.insert] using h
  | cons c rest ih =>
    obtain ⟨k, w⟩ := c
    unfold Memory.insert at h
    split at h
    · simpa using h
    · split at h
      · simp only [List.mem_cons] at h ⊢
        tauto
      · simp only [List.mem_cons] at h ⊢
        rcases h with h | h
        · tauto
        · rcases ih h with h | h <;> tauto

theorem Memory.wf_insert {m : Memory} (hm : Memory.wf m) {a : Nat} (ha : a < 65536) {v : Byte}
    (hv : v ≠ unlistedByte) : Memory.wf (Memory.insert m a v) := by
  refine ⟨?_, fun p hp => ?_⟩
  · have hs := hm.1
    clear hm
    induction m with
    | nil => simp [Memory.insert]
    | cons c rest ih =>
      obtain ⟨k, w⟩ := c
      rw [List.pairwise_cons] at hs
      unfold Memory.insert
      split
      · rename_i hlt
        refine List.pairwise_cons.2 ⟨fun q hq => ?_, List.pairwise_cons.2 hs⟩
        rcases List.mem_cons.1 hq with rfl | hq
        · exact hlt
        · exact lt_trans hlt (hs.1 q hq)
      · split
        · rename_i hk
          subst hk
          exact List.pairwise_cons.2 hs
        · refine List.pairwise_cons.2 ⟨fun q hq => ?_, ih hs.2⟩
          rcases Memory.mem_insert hq with rfl | hq
          · simp only
            omega
          · exact hs.1 q hq
  · rcases Memory.mem_insert hp with rfl | hp
    · exact ⟨ha, hv⟩
    · exact hm.2 p hp

theorem Memory.wf_erase {m : Memory} (hm : Memory.wf m) (a : Nat) : Memory.wf (Memory.erase m a) :=
  ⟨hm.1.sublist List.filter_sublist, fun p hp => hm.2 p (List.mem_filter.1 hp).1⟩

theorem Memory.wf_set {m : Memory} (hm : Memory.wf m) {a : Nat} (ha : a < 65536) (v : Byte) :
    Memory.wf (Memory.set m a v) := by
  unfold Memory.set
  split
  · exact Memory.wf_erase hm a
  · exact Memory.wf_insert hm ha ‹_›

theorem Memory.wf_setAll {m : Memory} (hm : Memory.wf m) (as : List Word) (v : Byte) :
    Memory.wf (Memory.setAll m as v) := by
  unfold Memory.setAll
  induction as generalizing m with
  | nil => exact hm
  | cons a rest ih => exact ih (Memory.wf_set hm a.isLt v)

/-- The reset memory lists nothing, so it has the canonical form. -/
theorem State.wf_reset : Memory.wf State.reset.mem := Memory.wf_nil

theorem State.wf_pokeByte {s : State} (h : Memory.wf s.mem) (a : Word) (v : Byte) :
    Memory.wf (s.pokeByte a v).mem := Memory.wf_setAll h _ v

theorem State.wf_writeByte {s : State} (h : Memory.wf s.mem) (a : Word) (v : Byte) :
    Memory.wf (s.writeByte a v).mem := by
  unfold State.writeByte
  split
  · exact Memory.wf_setAll h _ v
  · exact h

theorem State.wf_writeWord {s : State} (h : Memory.wf s.mem) (a v : Word) : Memory.wf (s.writeWord a v).mem :=
  State.wf_writeByte (State.wf_writeByte h _ _) _ _

theorem State.wf_push16 {s : State} (h : Memory.wf s.mem) (v : Word) : Memory.wf (s.push16 v).mem :=
  State.wf_writeWord (s := { s with sp := s.sp - 2 }) h _ v

/-! ### Aliases -/

theorem toNat_and_3FF (a : Word) : (a &&& 0x3FF).toNat = a.toNat % 1024 := by
  rw [BitVec.toNat_and]
  exact Nat.and_two_pow_sub_one_eq_mod a.toNat 10

/-- A store to `a` writes exactly the addresses with the alias key of `a` (R107, R111). -/
theorem mem_mirrors_iff (a b : Word) : b ∈ a :: mirrors a ↔ aliasKey b = aliasKey a := by
  have ha := a.isLt
  have hb := b.isLt
  have hk := toNat_and_3FF a
  have hkl : (a &&& 0x3FF).toNat < 1024 := by omega
  have e0 : (0x400 : Word).toNat = 0x400 := rfl
  have e1 : (0x3000 : Word).toNat = 0x3000 := rfl
  have e2 : (0x3400 : Word).toNat = 0x3400 := rfl
  have e3 : (0x3800 : Word).toNat = 0x3800 := rfl
  have e4 : (0x3C00 : Word).toNat = 0x3C00 := rfl
  rw [List.mem_cons]
  unfold mirrors aliasKey
  simp only [BitVec.toNat_eq]
  by_cases h1 : (0x2000 ≤ a.toNat ∧ a.toNat ≤ 0x23FF) ∨ (0x2800 ≤ a.toNat ∧ a.toNat ≤ 0x2BFF)
  · rw [if_pos h1]
    simp only [List.mem_singleton, BitVec.toNat_eq, BitVec.toNat_add, e0]
    split_ifs <;> omega
  · rw [if_neg h1]
    by_cases h2 : (0x2400 ≤ a.toNat ∧ a.toNat ≤ 0x27FF) ∨ (0x2C00 ≤ a.toNat ∧ a.toNat ≤ 0x2FFF)
    · rw [if_pos h2]
      simp only [List.mem_singleton, BitVec.toNat_eq, BitVec.toNat_sub, e0]
      split_ifs <;> omega
    · rw [if_neg h2]
      by_cases h3 : 0x3000 ≤ a.toNat ∧ a.toNat ≤ 0x3FFF
      · rw [if_pos h3]
        simp only [quadMirrors, List.mem_filter, List.mem_cons, List.not_mem_nil, or_false, decide_eq_true_eq, ne_eq,
          BitVec.toNat_eq, BitVec.toNat_add, hk, e1, e2, e3, e4]
        split_ifs <;> omega
      · rw [if_neg h3]
        simp only [List.not_mem_nil, or_false]
        split_ifs <;> omega

theorem State.readByte_pokeByte (s : State) (a b : Word) (v : Byte) :
    (s.pokeByte a v).readByte b = if aliasKey b = aliasKey a then v else s.readByte b := by
  simp only [State.pokeByte, State.readByte, Memory.get_setAll, mem_mirrors_iff]

/-- What a byte store leaves in memory, in every state (R106, R107). -/
theorem State.readByte_writeByte (s : State) (a b : Word) (v : Byte) :
    (s.writeByte a v).readByte b = if s.writable a ∧ aliasKey b = aliasKey a then v else s.readByte b := by
  unfold State.writeByte
  split
  · rename_i h
    simp only [h, true_and]
    exact s.readByte_pokeByte a b v
  · rename_i h
    simp [h]

theorem State.stored_writeByte (s : State) (a : Word) (v : Byte) : Stored s (s.writeByte a v) a v :=
  fun b => s.readByte_writeByte a b v

theorem State.storedWord_writeWord (s : State) (a v : Word) : StoredWord s (s.writeWord a v) a v := by
  intro b
  simp only [State.writeWord, State.readByte_writeByte, State.writeByte_writable]

/-- Addresses of one alias class lie in one bank (R108). -/
theorem writable_of_aliasKey {s : State} {a b : Word} (h : aliasKey a = aliasKey b) : s.writable a = s.writable b := by
  have ha := a.isLt
  have hb := b.isLt
  have : a.extractLsb' 13 3 = b.extractLsb' 13 3 := by
    apply BitVec.eq_of_toNat_eq
    simp only [BitVec.extractLsb'_toNat, Nat.shiftRight_eq_div_pow]
    unfold aliasKey at h
    simp only at h
    split_ifs at h <;> omega
  simp only [State.writable, this]

/-! ### The mirror invariant (R112) -/

theorem State.mirrored_pokeByte {s : State} (h : s.Mirrored) (a : Word) (v : Byte) : (s.pokeByte a v).Mirrored := by
  intro b c hbc
  rw [State.readByte_pokeByte, State.readByte_pokeByte, hbc, h b c hbc]

theorem State.mirrored_writeByte {s : State} (h : s.Mirrored) (a : Word) (v : Byte) : (s.writeByte a v).Mirrored := by
  intro b c hbc
  rw [State.readByte_writeByte, State.readByte_writeByte, hbc, h b c hbc]

theorem State.mirrored_writeWord {s : State} (h : s.Mirrored) (a v : Word) : (s.writeWord a v).Mirrored :=
  State.mirrored_writeByte (State.mirrored_writeByte h _ _) _ _

theorem State.mirrored_congr {s t : State} (hm : t.mem = s.mem) (h : s.Mirrored) : t.Mirrored := by
  intro b c hbc
  rw [State.readByte_congr hm, State.readByte_congr hm, h b c hbc]

end Sys2Proof.Machine
end

