-- ==== Sys2Proof/Laws/Ops.lean ====
section
/-! SUPPORT. What each shared operation can do, once: the fetches of an instruction, the stack, the boundary actions,
interrupt acceptance, host actions and the step. -/

namespace Sys2Proof.Machine

/-! ### Running an effect -/

theorem run_eq (len : Word) (m1 : Byte) (t : Count) (f : State → State) (s : State) :
    run len m1 t f s = .next (f (s.fetched len m1 t)) := rfl

/-- With the prefix taken in an earlier sub-step, only the rest is charged. -/
theorem runXY_of_taken {s : State} {x : IndexReg} (h : s.pfx = some x) (len : Word) (m1 : Byte) (t : Count)
    (f : State → State) : runXY x len m1 t f s = .next (f (s.fetched len m1 t)) := by
  rw [runXY, State.ownPrefix_of_taken h]

/-- Otherwise the prefix byte is charged with the rest. -/
theorem runXY_of_not_taken {s : State} {x : IndexReg} (h : s.pfx ≠ some x) (len : Word) (m1 : Byte) (t : Count)
    (f : State → State) : runXY x len m1 t f s = .next (f (s.fetched (1 + len) (1 + m1) (4 + t))) := by
  have : (s.takePrefix x).fetched len m1 t = s.fetched (1 + len) (1 + m1) (4 + t) := by
    simp only [State.takePrefix, State.fetched, BitVec.add_assoc]
  rw [runXY, State.ownPrefix_of_not_taken h, this]

/-! ### Reads after a push -/

/-- A push leaves memory as the word store at the new SP (R250). -/
theorem State.storedWord_push16 (s : State) (v : Word) : StoredWord s (s.push16 v) (s.sp - 2) v :=
  State.storedWord_writeWord { s with sp := s.sp - 2 } (s.sp - 2) v

/-! ### Boundary actions -/

theorem State.sampleRequest_idle {s : State} (h : s.request = .idle) : s.sampleRequest = s := by
  cases s
  subst h
  rfl

theorem State.sampleRequest_dropped {s : State} (h : s.request = .pendingInterrupt) (hi : s.iff1 = false) :
    s.sampleRequest = { s with request := .idle } := by
  simp [State.sampleRequest, h, hi]

theorem State.sampleRequest_accepted {s : State} (h : s.request = .pendingInterrupt) (hi : s.iff1 = true) :
    s.sampleRequest = { s with request := .idle }.acceptInterrupt := by
  simp [State.sampleRequest, h, hi]

theorem State.sampleRequest_reset {s : State} (h : s.request = .pendingReset) :
    s.sampleRequest = { s with request := .idle }.resetCore := by
  simp [State.sampleRequest, h]

/-- A boundary does one of four things to the state, and then only `run` may change. -/
theorem State.boundary_cases (s : State) :
    ∃ r : RunState, s.boundary = { s.sampleRequest with run := r } ∧
      (r = s.sampleRequest.run ∨
        r = .suspended ∧ s.sampleRequest.speed = .normal ∧
          s.sampleRequest.tstates.toNat > s.sampleRequest.params.tstatesPerTick) := by
  unfold State.boundary State.throttleCheck
  split
  · rename_i h
    exact ⟨.suspended, rfl, .inr ⟨rfl, h⟩⟩
  · exact ⟨s.sampleRequest.run, rfl, .inl rfl⟩

theorem State.finish_of_prefixed {s : State} {x : IndexReg} (h : s.pfx = some x) : s.finish = s := by
  simp [State.finish, h]

theorem State.finish_of_none {s : State} (h : s.pfx = none) : s.finish = s.boundary := by
  simp [State.finish, h]

/-! ### Host actions -/

/-- A row of byte stores changes nothing but memory. -/
theorem State.stores_frame (ps : List (Word × Byte)) (s : State) :
    { ps.foldl (fun t p => t.writeByte p.1 p.2) s with mem := s.mem } = s := by
  induction ps generalizing s with
  | nil => rfl
  | cons p ps ih =>
    have h := congrArg (fun t : State => { t with mem := s.mem }) (ih (s.writeByte p.1 p.2))
    rw [List.foldl_cons]
    refine h.trans ?_
    unfold State.writeByte
    split <;> rfl

theorem State.byteAfter_cons (s : State) (p : Word × Byte) (ps : List (Word × Byte)) (b : Word) :
    s.byteAfter (p :: ps) b = (s.writeByte p.1 p.2).byteAfter ps b := by
  simp only [State.byteAfter, State.writeByte_writable, List.reverse_cons, List.find?_append]
  cases ps.reverse.find? fun p => decide (aliasKey p.1 = aliasKey b) && s.writable p.1 with
  | some q => rfl
  | none =>
    rw [State.readByte_writeByte]
    by_cases hk : aliasKey p.1 = aliasKey b <;> cases hw : s.writable p.1 <;> simp [hk, hw, Ne.symm, eq_comm]

/-- After a row of byte stores, each address reads what the last store it can see left (R106, R107). -/
theorem State.readByte_stores (ps : List (Word × Byte)) (s : State) (b : Word) :
    (ps.foldl (fun t p => t.writeByte p.1 p.2) s).readByte b = s.byteAfter ps b := by
  induction ps generalizing s with
  | nil => rfl
  | cons p ps ih => rw [List.foldl_cons, ih, State.byteAfter_cons]

theorem State.takeInbox_nil {s : State} (h : s.inbox = []) : s.takeInbox = s := by
  simp [State.takeInbox, h]

/-- Without host actions to come, a running core that is neither halted nor at a trap runs the instruction at PC. -/
theorem step_execute {s t : State} (hi : s.inbox = []) (ha : s.activity = .execute)
    (h : exec s.nextInstr s = .next t) : step s = .next t.finish := by
  unfold step
  rw [State.takeInbox_nil hi]
  simp [ha, h]

theorem State.activity_wait {s : State} (h : s.run ≠ .running) : s.activity = .wait := by
  simp [State.activity, h]

theorem State.activity_idle {s : State} (hr : s.run = .running) (h : s.halted = true) : s.activity = .idle := by
  simp [State.activity, hr, h]

theorem State.activity_of_prefixed {s : State} {x : IndexReg} (hr : s.run = .running) (hh : s.halted = false)
    (h : s.pfx = some x) : s.activity = .execute := by
  simp [State.activity, hr, hh, h]

theorem State.activity_of_no_trap {s : State} (hr : s.run = .running) (hh : s.halted = false)
    (h : s.trapAt = none) : s.activity = .execute := by
  unfold State.activity
  simp only [hr, hh, h]
  cases s.pfx <;> simp

theorem State.activity_trap {s : State} {k : TrapKind} (hr : s.run = .running) (hh : s.halted = false)
    (hp : s.pfx = none) (h : s.trapAt = some k) : s.activity = .trap k := by
  simp [State.activity, hr, hh, hp, h]

end Sys2Proof.Machine
end

