-- ==== Sys2Proof/Tests/Slice0.lean ====
section
/-! SUPPORT. The tests. Words are written out from the encoding column of spec/opcode_table.json, with operand values
chosen here; expected results are the vectors of spec/95_test_vectors.md, whose bits marked `?` are not tested. The last
part shows, for every statement with hypotheses, a state and operands that meet them. -/

namespace Sys2Proof.Tests

open Sys2Proof.Machine Sys2Proof.Spec

/-! ### Well-formedness: an ill-formed term for each check -/

theorem test_jrCond_needs_a_relative_condition :
    (Instr.jrCond .po 0).wellFormed = false ∧ (Instr.jrCond .m 0).wellFormed = false ∧
    (Instr.jrCond .c 0).wellFormed = true := by decide

theorem test_ldRHalf_excludes_H_and_L :
    (Instr.ldRHalf .ix .h .low).wellFormed = false ∧ (Instr.ldRHalf .iy .l .high).wellFormed = false ∧
    (Instr.ldRHalf .iy .a .high).wellFormed = true := by decide

theorem test_duplicates_exclude_the_documented_field :
    (Instr.negDup 0).wellFormed = false ∧ (Instr.retnDup 0).wellFormed = false ∧
    (Instr.retnDup 1).wellFormed = false ∧ (Instr.im0Dup 0).wellFormed = false ∧
    (Instr.im0Dup 2).wellFormed = false ∧ (Instr.im0Dup 7).wellFormed = false ∧
    (Instr.negDup 7).wellFormed = true ∧ (Instr.im0Dup 5).wellFormed = true := by decide

theorem test_edHole_is_a_listed_byte :
    (Instr.edHole 0x44).wellFormed = false ∧ (Instr.edHole 0xB0).wellFormed = false ∧
    (Instr.edHole 0x77).wellFormed = true ∧ (Instr.edHole 0x3F).wellFormed = true := by decide

theorem test_ignoredIndexPrefix_stands_before_class_4 :
    (Instr.ignoredIndexPrefix .ix 0x21).wellFormed = false ∧ (Instr.ignoredIndexPrefix .iy 0x66).wellFormed = false ∧
    (Instr.ignoredIndexPrefix .ix 0x7C).wellFormed = false ∧ (Instr.ignoredIndexPrefix .ix 0xCB).wellFormed = false ∧
    (Instr.ignoredIndexPrefix .ix 0x76).wellFormed = true := by decide

/-! ### Decoding: a word for every row of the opcode table -/

theorem test_decode_8_bit_loads_1 :
    decode [0x49] = .ok (.ldRR .c .c) [] ∧
    decode [0x26, 0x00] = .ok (.ldRN .h 0x00) [] ∧
    decode [0x46] = .ok (.ldRIndHL .b) [] ∧
    decode [0xFD, 0x5E, 0x80] = .ok (.ldRIndXY .iy .e 0x80) [] ∧
    decode [0x74] = .ok (.ldIndHLR .h) [] ∧
    decode [0xDD, 0x70, 0x7F] = .ok (.ldIndXYR .ix .b 0x7F) [] ∧
    decode [0x36, 0xFF] = .ok (.ldIndHLN 0xFF) [] ∧
    decode [0xFD, 0x36, 0xFE, 0x5A] = .ok (.ldIndXYN .iy 0xFE 0x5A) [] ∧
    decode [0x0A] = .ok .ldAIndBC [] ∧
    decode [0x1A] = .ok .ldAIndDE [] ∧
    decode [0x3A, 0x34, 0x12] = .ok (.ldAMem 0x1234) [] ∧
    decode [0x02] = .ok .ldIndBCA [] ∧
    decode [0x12] = .ok .ldIndDEA [] ∧
    decode [0x32, 0xFF, 0x80] = .ok (.ldMemA 0x80FF) [] := by
  decide

theorem test_decode_8_bit_loads_2 :
    decode [0xED, 0x57] = .ok .ldAI [] ∧
    decode [0xED, 0x5F] = .ok .ldAR [] ∧
    decode [0xED, 0x47] = .ok .ldIA [] ∧
    decode [0xED, 0x4F] = .ok .ldRA [] ∧
    decode [0xDD, 0x5D] = .ok (.ldRHalf .ix .e .low) [] ∧
    decode [0xFD, 0x63] = .ok (.ldHalfR .iy .high .e) [] ∧
    decode [0xDD, 0x2E, 0x80] = .ok (.ldHalfN .ix .low 0x80) [] := by
  decide

theorem test_decode_16_bit_loads_and_the_stack :
    decode [0x11, 0x00, 0xFF] = .ok (.ldPairNN .de 0xFF00) [] ∧
    decode [0xFD, 0x21, 0x34, 0x12] = .ok (.ldXYNN .iy 0x1234) [] ∧
    decode [0x2A, 0xFF, 0x80] = .ok (.ldHLMem 0x80FF) [] ∧
    decode [0xED, 0x4B, 0x00, 0xFF] = .ok (.ldPairMem .bc 0xFF00) [] ∧
    decode [0xDD, 0x2A, 0x34, 0x12] = .ok (.ldXYMem .ix 0x1234) [] ∧
    decode [0x22, 0xFF, 0x80] = .ok (.ldMemHL 0x80FF) [] ∧
    decode [0xED, 0x73, 0x00, 0xFF] = .ok (.ldMemPair .sp 0xFF00) [] ∧
    decode [0xFD, 0x22, 0x34, 0x12] = .ok (.ldMemXY .iy 0x1234) [] ∧
    decode [0xF9] = .ok .ldSPHL [] ∧
    decode [0xDD, 0xF9] = .ok (.ldSPXY .ix) [] ∧
    decode [0xE5] = .ok (.pushPair .hl) [] ∧
    decode [0xFD, 0xE5] = .ok (.pushXY .iy) [] ∧
    decode [0xD1] = .ok (.popPair .de) [] ∧
    decode [0xDD, 0xE1] = .ok (.popXY .ix) [] := by
  decide

theorem test_decode_exchange_block_transfer_and_search :
    decode [0xEB] = .ok .exDEHL [] ∧
    decode [0x08] = .ok .exAFAF [] ∧
    decode [0xD9] = .ok .exx [] ∧
    decode [0xE3] = .ok .exSPHL [] ∧
    decode [0xFD, 0xE3] = .ok (.exSPXY .iy) [] ∧
    decode [0xED, 0xA0] = .ok .ldi [] ∧
    decode [0xED, 0xB0] = .ok .ldir [] ∧
    decode [0xED, 0xA8] = .ok .ldd [] ∧
    decode [0xED, 0xB8] = .ok .lddr [] ∧
    decode [0xED, 0xA1] = .ok .cpi [] ∧
    decode [0xED, 0xB1] = .ok .cpir [] ∧
    decode [0xED, 0xA9] = .ok .cpd [] ∧
    decode [0xED, 0xB9] = .ok .cpdr [] := by
  decide

theorem test_decode_8_bit_arithmetic_and_logic_1 :
    decode [0x87] = .ok (.addR .a) [] ∧
    decode [0xC6, 0x00] = .ok (.addN 0x00) [] ∧
    decode [0x86] = .ok .addIndHL [] ∧
    decode [0xDD, 0x86, 0x05] = .ok (.addIndXY .ix 0x05) [] ∧
    decode [0xFD, 0x84] = .ok (.addHalf .iy .high) [] ∧
    decode [0x8A] = .ok (.adcR .d) [] ∧
    decode [0xCE, 0xFF] = .ok (.adcN 0xFF) [] ∧
    decode [0x8E] = .ok .adcIndHL [] ∧
    decode [0xDD, 0x8E, 0x80] = .ok (.adcIndXY .ix 0x80) [] ∧
    decode [0xFD, 0x8D] = .ok (.adcHalf .iy .low) [] ∧
    decode [0x95] = .ok (.subR .l) [] ∧
    decode [0xD6, 0x5A] = .ok (.subN 0x5A) [] ∧
    decode [0x96] = .ok .subIndHL [] ∧
    decode [0xDD, 0x96, 0x7F] = .ok (.subIndXY .ix 0x7F) [] := by
  decide

theorem test_decode_8_bit_arithmetic_and_logic_2 :
    decode [0xFD, 0x94] = .ok (.subHalf .iy .high) [] ∧
    decode [0x99] = .ok (.sbcR .c) [] ∧
    decode [0xDE, 0x80] = .ok (.sbcN 0x80) [] ∧
    decode [0x9E] = .ok .sbcIndHL [] ∧
    decode [0xDD, 0x9E, 0xFE] = .ok (.sbcIndXY .ix 0xFE) [] ∧
    decode [0xFD, 0x9D] = .ok (.sbcHalf .iy .low) [] ∧
    decode [0xA4] = .ok (.andR .h) [] ∧
    decode [0xE6, 0x00] = .ok (.andN 0x00) [] ∧
    decode [0xA6] = .ok .andIndHL [] ∧
    decode [0xDD, 0xA6, 0x05] = .ok (.andIndXY .ix 0x05) [] ∧
    decode [0xFD, 0xA4] = .ok (.andHalf .iy .high) [] ∧
    decode [0xA8] = .ok (.xorR .b) [] ∧
    decode [0xEE, 0xFF] = .ok (.xorN 0xFF) [] ∧
    decode [0xAE] = .ok .xorIndHL [] := by
  decide

theorem test_decode_8_bit_arithmetic_and_logic_3 :
    decode [0xDD, 0xAE, 0x80] = .ok (.xorIndXY .ix 0x80) [] ∧
    decode [0xFD, 0xAD] = .ok (.xorHalf .iy .low) [] ∧
    decode [0xB3] = .ok (.orR .e) [] ∧
    decode [0xF6, 0x5A] = .ok (.orN 0x5A) [] ∧
    decode [0xB6] = .ok .orIndHL [] ∧
    decode [0xDD, 0xB6, 0x7F] = .ok (.orIndXY .ix 0x7F) [] ∧
    decode [0xFD, 0xB4] = .ok (.orHalf .iy .high) [] ∧
    decode [0xBF] = .ok (.cpR .a) [] ∧
    decode [0xFE, 0x80] = .ok (.cpN 0x80) [] ∧
    decode [0xBE] = .ok .cpIndHL [] ∧
    decode [0xDD, 0xBE, 0xFE] = .ok (.cpIndXY .ix 0xFE) [] ∧
    decode [0xFD, 0xBD] = .ok (.cpHalf .iy .low) [] ∧
    decode [0x14] = .ok (.incR .d) [] ∧
    decode [0x34] = .ok .incIndHL [] := by
  decide

theorem test_decode_8_bit_arithmetic_and_logic_4 :
    decode [0xDD, 0x34, 0x05] = .ok (.incIndXY .ix 0x05) [] ∧
    decode [0xFD, 0x24] = .ok (.incHalf .iy .high) [] ∧
    decode [0x2D] = .ok (.decR .l) [] ∧
    decode [0x35] = .ok .decIndHL [] ∧
    decode [0xDD, 0x35, 0x80] = .ok (.decIndXY .ix 0x80) [] ∧
    decode [0xFD, 0x2D] = .ok (.decHalf .iy .low) [] := by
  decide

theorem test_decode_general_purpose_arithmetic_and_cpu_control_1 :
    decode [0x27] = .ok .daa [] ∧
    decode [0x2F] = .ok .cpl [] ∧
    decode [0xED, 0x44] = .ok .neg [] ∧
    decode [0xED, 0x54] = .ok (.negDup 2) [] ∧
    decode [0x3F] = .ok .ccf [] ∧
    decode [0x37] = .ok .scf [] ∧
    decode [0x00] = .ok .nop [] ∧
    decode [0x76] = .ok .halt [] ∧
    decode [0xF3] = .ok .di [] ∧
    decode [0xFB] = .ok .ei [] ∧
    decode [0xED, 0x46] = .ok .im0 [] ∧
    decode [0xED, 0x4E] = .ok (.im0Dup 1) [] ∧
    decode [0xED, 0x56] = .ok .im1 [] ∧
    decode [0xED, 0x76] = .ok .im1Dup [] := by
  decide

theorem test_decode_general_purpose_arithmetic_and_cpu_control_2 :
    decode [0xED, 0x5E] = .ok .im2 [] ∧
    decode [0xED, 0x7E] = .ok .im2Dup [] ∧
    decode [0xED, 0x01] = .ok (.edHole 0x01) [] ∧
    decode [0xED, 0x77] = .ok (.edHole 0x77) [] ∧
    decode [0xED, 0x87] = .ok (.edHole 0x87) [] ∧
    decode [0xED, 0xB6] = .ok (.edHole 0xB6) [] ∧
    decode [0xED, 0xCD] = .ok (.edHole 0xCD) [] := by
  decide

theorem test_decode_16_bit_arithmetic :
    decode [0x09] = .ok (.addHLPair .bc) [] ∧
    decode [0xED, 0x7A] = .ok (.adcHLPair .sp) [] ∧
    decode [0xED, 0x62] = .ok (.sbcHLPair .hl) [] ∧
    decode [0xDD, 0x19] = .ok (.addXYPair .ix .de) [] ∧
    decode [0x03] = .ok (.incPair .bc) [] ∧
    decode [0xFD, 0x23] = .ok (.incXY .iy) [] ∧
    decode [0x3B] = .ok (.decPair .sp) [] ∧
    decode [0xDD, 0x2B] = .ok (.decXY .ix) [] := by
  decide

theorem test_decode_rotates_shifts_and_bit_operations_1 :
    decode [0x07] = .ok .rlca [] ∧
    decode [0x17] = .ok .rla [] ∧
    decode [0x0F] = .ok .rrca [] ∧
    decode [0x1F] = .ok .rra [] ∧
    decode [0xCB, 0x02] = .ok (.rlcR .d) [] ∧
    decode [0xCB, 0x06] = .ok .rlcIndHL [] ∧
    decode [0xFD, 0xCB, 0x7F, 0x06] = .ok (.rlcIndXY .iy 0x7F) [] ∧
    decode [0xDD, 0xCB, 0xFE, 0x05] = .ok (.rlcIndXYR .ix 0xFE .l) [] ∧
    decode [0xCB, 0x09] = .ok (.rrcR .c) [] ∧
    decode [0xCB, 0x0E] = .ok .rrcIndHL [] ∧
    decode [0xFD, 0xCB, 0x05, 0x0E] = .ok (.rrcIndXY .iy 0x05) [] ∧
    decode [0xDD, 0xCB, 0x80, 0x0C] = .ok (.rrcIndXYR .ix 0x80 .h) [] ∧
    decode [0xCB, 0x10] = .ok (.rlR .b) [] ∧
    decode [0xCB, 0x16] = .ok .rlIndHL [] := by
  decide

theorem test_decode_rotates_shifts_and_bit_operations_2 :
    decode [0xFD, 0xCB, 0x7F, 0x16] = .ok (.rlIndXY .iy 0x7F) [] ∧
    decode [0xDD, 0xCB, 0xFE, 0x13] = .ok (.rlIndXYR .ix 0xFE .e) [] ∧
    decode [0xCB, 0x1F] = .ok (.rrR .a) [] ∧
    decode [0xCB, 0x1E] = .ok .rrIndHL [] ∧
    decode [0xFD, 0xCB, 0x05, 0x1E] = .ok (.rrIndXY .iy 0x05) [] ∧
    decode [0xDD, 0xCB, 0x80, 0x1A] = .ok (.rrIndXYR .ix 0x80 .d) [] ∧
    decode [0xCB, 0x25] = .ok (.slaR .l) [] ∧
    decode [0xCB, 0x26] = .ok .slaIndHL [] ∧
    decode [0xFD, 0xCB, 0x7F, 0x26] = .ok (.slaIndXY .iy 0x7F) [] ∧
    decode [0xDD, 0xCB, 0xFE, 0x21] = .ok (.slaIndXYR .ix 0xFE .c) [] ∧
    decode [0xCB, 0x2C] = .ok (.sraR .h) [] ∧
    decode [0xCB, 0x2E] = .ok .sraIndHL [] ∧
    decode [0xFD, 0xCB, 0x05, 0x2E] = .ok (.sraIndXY .iy 0x05) [] ∧
    decode [0xDD, 0xCB, 0x80, 0x28] = .ok (.sraIndXYR .ix 0x80 .b) [] := by
  decide

theorem test_decode_rotates_shifts_and_bit_operations_3 :
    decode [0xCB, 0x33] = .ok (.sllR .e) [] ∧
    decode [0xCB, 0x36] = .ok .sllIndHL [] ∧
    decode [0xFD, 0xCB, 0x7F, 0x36] = .ok (.sllIndXY .iy 0x7F) [] ∧
    decode [0xDD, 0xCB, 0xFE, 0x37] = .ok (.sllIndXYR .ix 0xFE .a) [] ∧
    decode [0xCB, 0x3A] = .ok (.srlR .d) [] ∧
    decode [0xCB, 0x3E] = .ok .srlIndHL [] ∧
    decode [0xFD, 0xCB, 0x05, 0x3E] = .ok (.srlIndXY .iy 0x05) [] ∧
    decode [0xDD, 0xCB, 0x80, 0x3D] = .ok (.srlIndXYR .ix 0x80 .l) [] ∧
    decode [0xED, 0x6F] = .ok .rld [] ∧
    decode [0xED, 0x67] = .ok .rrd [] ∧
    decode [0xCB, 0x49] = .ok (.bitR 1 .c) [] ∧
    decode [0xCB, 0x66] = .ok (.bitIndHL 4) [] ∧
    decode [0xFD, 0xCB, 0x7F, 0x7E] = .ok (.bitIndXY .iy 0x7F 7) [] ∧
    decode [0xDD, 0xCB, 0xFE, 0x54] = .ok (.bitIndXYDup .ix 0xFE 2 .h) [] := by
  decide

theorem test_decode_rotates_shifts_and_bit_operations_4 :
    decode [0xCB, 0xE8] = .ok (.setR 5 .b) [] ∧
    decode [0xCB, 0xC6] = .ok (.setIndHL 0) [] ∧
    decode [0xFD, 0xCB, 0x05, 0xDE] = .ok (.setIndXY .iy 0x05 3) [] ∧
    decode [0xDD, 0xCB, 0x80, 0xF3] = .ok (.setIndXYR .ix 0x80 6 .e) [] ∧
    decode [0xCB, 0x8F] = .ok (.resR 1 .a) [] ∧
    decode [0xCB, 0xA6] = .ok (.resIndHL 4) [] ∧
    decode [0xFD, 0xCB, 0x7F, 0xBE] = .ok (.resIndXY .iy 0x7F 7) [] ∧
    decode [0xDD, 0xCB, 0xFE, 0x92] = .ok (.resIndXYR .ix 0xFE 2 .d) [] := by
  decide

theorem test_decode_jumps_calls_and_returns_1 :
    decode [0xC3, 0xFF, 0x80] = .ok (.jp 0x80FF) [] ∧
    decode [0xCA, 0x00, 0xFF] = .ok (.jpCond .z 0xFF00) [] ∧
    decode [0x18, 0xFE] = .ok (.jr 0xFE) [] ∧
    decode [0x20, 0x10] = .ok (.jrCond .nz 0x10) [] ∧
    decode [0xE9] = .ok .jpHL [] ∧
    decode [0xFD, 0xE9] = .ok (.jpXY .iy) [] ∧
    decode [0x10, 0x80] = .ok (.djnz 0x80) [] ∧
    decode [0xCD, 0x34, 0x12] = .ok (.call 0x1234) [] ∧
    decode [0xFC, 0xFF, 0x80] = .ok (.callCond .m 0x80FF) [] ∧
    decode [0xC9] = .ok .ret [] ∧
    decode [0xD0] = .ok (.retCond .nc) [] ∧
    decode [0xED, 0x4D] = .ok .reti [] ∧
    decode [0xED, 0x45] = .ok .retn [] ∧
    decode [0xED, 0x7D] = .ok (.retnDup 7) [] := by
  decide

theorem test_decode_jumps_calls_and_returns_2 :
    decode [0xCF] = .ok (.rst 1) [] := by
  decide

theorem test_decode_input_and_output :
    decode [0xDB, 0x00] = .ok (.inAN 0x00) [] ∧
    decode [0xED, 0x48] = .ok (.inRC .c) [] ∧
    decode [0xED, 0x70] = .ok .inFC [] ∧
    decode [0xED, 0xA2] = .ok .ini [] ∧
    decode [0xED, 0xB2] = .ok .inir [] ∧
    decode [0xED, 0xAA] = .ok .ind [] ∧
    decode [0xED, 0xBA] = .ok .indr [] ∧
    decode [0xD3, 0xFF] = .ok (.outNA 0xFF) [] ∧
    decode [0xED, 0x61] = .ok (.outCR .h) [] ∧
    decode [0xED, 0x71] = .ok .outC0 [] ∧
    decode [0xED, 0xA3] = .ok .outi [] ∧
    decode [0xED, 0xB3] = .ok .otir [] ∧
    decode [0xED, 0xAB] = .ok .outd [] ∧
    decode [0xED, 0xBB] = .ok .otdr [] := by
  decide

theorem test_decode_prefix_bytes :
    decode [0xCB] = .ok .prefixCB [] ∧
    decode [0xED] = .ok .prefixED [] ∧
    decode [0xDD] = .ok (.prefixIndex .ix) [] ∧
    decode [0xFD, 0xCB] = .ok (.prefixCBAfterIndex .iy) [] ∧
    decode [0xDD, 0xED] = .ok (.prefixEDAfterIndex .ix) [] ∧
    decode [0xFD, 0xFD] = .ok (.prefixRestart .iy .iy) [] ∧
    decode [0xDD, 0x41] = .ok (.ignoredIndexPrefix .ix 0x41) [] := by
  decide

/-! ### One instruction on a small state: vectors of spec/95_test_vectors.md -/

/-- The start state of the vectors. -/
def boot : State := { State.reset with pc := 0x4000, sp := 0x8000 }

/-- `exec i s` answers a next state of which `p` holds. -/
def ran (i : Instr) (s : State) (p : State → Bool) : Bool :=
  match exec i s with
  | .next t => p t
  | _ => false

/-- V41.1 (R201), `LD C,B`. -/
theorem test_v41_1_ldRR :
    ran (.ldRR .c .b) { boot with main := { RegSet.zero with b := 0x12 } } (fun t =>
        t.main.c == 0x12 && t.pc == 0x4001 && t.tstates == 4 && t.r == 0x01 && t.main.f == boot.main.f) = true :=
          by decide

/-- V41.3 (R202), `LD A,0x5A`. -/
theorem test_v41_3_ldRN :
    ran (.ldRN .a 0x5A) boot (fun t =>
        t.main.a == 0x5A && t.pc == 0x4002 && t.tstates == 7 && t.r == 0x01 && t.main.f == boot.main.f) = true :=
          by decide

/-- V41.4 (R203), `LD B,(HL)`. -/
theorem test_v41_4_ldRIndHL :
    ran (.ldRIndHL .b) { boot with main := { RegSet.zero with h := 0x41 }, mem := [(0x4100, 0x99)] } (fun t =>
        t.main.b == 0x99 && t.pc == 0x4001 && t.tstates == 7 && t.r == 0x01 && t.main.f == boot.main.f) = true :=
          by decide

/-- V41.6 (R204), `LD A,(IX-2)`. -/
theorem test_v41_6_ldRIndXY :
    ran (.ldRIndXY .ix .a 0xFE) { boot with ix := 0x5000, mem := [(0x4FFE, 0x31)] } (fun t =>
        t.main.a == 0x31 && t.pc == 0x4003 && t.tstates == 19 && t.r == 0x02 && t.main.f == boot.main.f) = true
          := by decide

/-- V41.9 (R205), `LD (HL),A mirror`. -/
theorem test_v41_9_ldIndHLR :
    ran (.ldIndHLR .a) { boot with main := { RegSet.zero with a := 0x41, h := 0x20, l := 0x10 } } (fun t =>
        t.pc == 0x4001 && t.readByte 0x2010 == 0x41 && t.readByte 0x2410 == 0x41 && t.tstates == 7 && t.r == 0x01
          && t.main.f == boot.main.f) = true := by decide

/-- V41.12 (R206), `LD (IY+5),B quad mirror`. -/
theorem test_v41_12_ldIndXYR :
    ran (.ldIndXYR .iy .b 0x05) { boot with main := { RegSet.zero with b := 0x7E }, iy := 0x3000 } (fun t =>
        t.pc == 0x4003 && t.readByte 0x3005 == 0x7E && t.readByte 0x3405 == 0x7E && t.readByte 0x3805 == 0x7E &&
          t.readByte 0x3C05 == 0x7E && t.tstates == 19 && t.r == 0x02 && t.main.f == boot.main.f) = true := by
          decide

/-- V41.14 (R207), `LD (HL),0xAA`. -/
theorem test_v41_14_ldIndHLN :
    ran (.ldIndHLN 0xAA) { boot with main := { RegSet.zero with h := 0x41 } } (fun t =>
        t.pc == 0x4002 && t.readByte 0x4100 == 0xAA && t.tstates == 10 && t.r == 0x01 && t.main.f == boot.main.f)
          = true := by decide

/-- V41.15 (R208), `LD (IX+1),0x55`. -/
theorem test_v41_15_ldIndXYN :
    ran (.ldIndXYN .ix 0x01 0x55) { boot with ix := 0x4100 } (fun t =>
        t.pc == 0x4004 && t.readByte 0x4101 == 0x55 && t.tstates == 19 && t.r == 0x02 && t.main.f == boot.main.f)
          = true := by decide

/-- V41.16 (R209), `LD A,(BC)`. -/
theorem test_v41_16_ldAIndBC :
    ran .ldAIndBC { boot with main := { RegSet.zero with b := 0x41 }, mem := [(0x4100, 0x07)] } (fun t =>
        t.main.a == 0x07 && t.pc == 0x4001 && t.tstates == 7 && t.r == 0x01 && t.main.f == boot.main.f) = true :=
          by decide

/-- V41.17 (R210), `LD A,(DE) from ROM`. -/
theorem test_v41_17_ldAIndDE :
    ran .ldAIndDE { boot with mem := [(0x0000, 0xF3)] } (fun t =>
        t.main.a == 0xF3 && t.pc == 0x4001 && t.tstates == 7 && t.r == 0x01 && t.main.f == boot.main.f) = true :=
          by decide

/-- V41.18 (R211), `LD A,(0x4100)`. -/
theorem test_v41_18_ldAMem :
    ran (.ldAMem 0x4100) { boot with mem := [(0x4100, 0x42)] } (fun t =>
        t.main.a == 0x42 && t.pc == 0x4003 && t.tstates == 13 && t.r == 0x01 && t.main.f == boot.main.f) = true
          := by decide

/-- V41.19 (R212), `LD (BC),A`. -/
theorem test_v41_19_ldIndBCA :
    ran .ldIndBCA { boot with main := { RegSet.zero with a := 0x01, b := 0x41 } } (fun t =>
        t.pc == 0x4001 && t.readByte 0x4100 == 0x01 && t.tstates == 7 && t.r == 0x01 && t.main.f == boot.main.f)
          = true := by decide

/-- V41.20 (R213), `LD (DE),A into ROM`. -/
theorem test_v41_20_ldIndDEA :
    ran .ldIndDEA { boot with main := { RegSet.zero with a := 0x01, d := 0x10 } } (fun t =>
        t.pc == 0x4001 && t.tstates == 7 && t.r == 0x01 && t.main.f == boot.main.f) = true := by decide

/-- V41.21 (R214), `LD (0x2C00),A mirror`. -/
theorem test_v41_21_ldMemA :
    ran (.ldMemA 0x2C00) { boot with main := { RegSet.zero with a := 0x33 } } (fun t =>
        t.pc == 0x4003 && t.readByte 0x2800 == 0x33 && t.readByte 0x2C00 == 0x33 && t.tstates == 13 && t.r ==
          0x01 && t.main.f == boot.main.f) = true := by decide

/-- V41.22 (R215), `LD A,I`. -/
theorem test_v41_22_ldAI :
    ran .ldAI { boot with i := 0x80, iff2 := true } (fun t =>
        t.main.a == 0x80 && t.main.f.s && !t.main.f.z && !t.main.f.h && t.main.f.pv && !t.main.f.n && !t.main.f.c
          && t.pc == 0x4002 && t.tstates == 9 && t.r == 0x02) = true := by decide

/-- V41.24 (R216), `LD A,R`. -/
theorem test_v41_24_ldAR :
    ran .ldAR { boot with r := 0x7E } (fun t =>
        t.main.a == 0x80 && t.main.f.s && !t.main.f.z && !t.main.f.h && !t.main.f.pv && !t.main.f.n &&
          !t.main.f.c && t.pc == 0x4002 && t.tstates == 9 && t.r == 0x80) = true := by decide

/-- V41.25 (R217), `LD I,A`. -/
theorem test_v41_25_ldIA :
    ran .ldIA { boot with main := { RegSet.zero with a := 0x1E } } (fun t =>
        t.pc == 0x4002 && t.i == 0x1E && t.tstates == 9 && t.r == 0x02 && t.main.f == boot.main.f) = true := by
          decide

/-- V41.27 (R219), `LD A,IXL`. -/
theorem test_v41_27_ldRHalf :
    ran (.ldRHalf .ix .a .low) { boot with ix := 0x1234 } (fun t =>
        t.main.a == 0x34 && t.pc == 0x4002 && t.tstates == 8 && t.r == 0x02 && t.main.f == boot.main.f) = true :=
          by decide

/-- V41.31 (R220), `LD IYL,0x99`. -/
theorem test_v41_31_ldHalfN :
    ran (.ldHalfN .iy .low 0x99) { boot with iy := 0x1234 } (fun t =>
        t.iy == 0x1299 && t.pc == 0x4003 && t.tstates == 11 && t.r == 0x02 && t.main.f == boot.main.f) = true :=
          by decide

/-- V42.1 (R240), `LD HL,0x1234`. -/
theorem test_v42_1_ldPairNN :
    ran (.ldPairNN .hl 0x1234) boot (fun t =>
        t.main.h == 0x12 && t.main.l == 0x34 && t.pc == 0x4003 && t.tstates == 10 && t.r == 0x01 && t.main.f ==
          boot.main.f) = true := by decide

/-- V42.3 (R241), `LD IX,0x5000`. -/
theorem test_v42_3_ldXYNN :
    ran (.ldXYNN .ix 0x5000) boot (fun t =>
        t.ix == 0x5000 && t.pc == 0x4004 && t.tstates == 14 && t.r == 0x02 && t.main.f == boot.main.f) = true :=
          by decide

/-- V42.5 (R242), `LD HL,(0x4100)`. -/
theorem test_v42_5_ldHLMem :
    ran (.ldHLMem 0x4100) { boot with mem := [(0x4100, 0x34), (0x4101, 0x12)] } (fun t =>
        t.main.h == 0x12 && t.main.l == 0x34 && t.pc == 0x4003 && t.tstates == 16 && t.r == 0x01 && t.main.f ==
          boot.main.f) = true := by decide

/-- V42.7 (R243), `LD SP,(0x4100)`. -/
theorem test_v42_7_ldPairMem :
    ran (.ldPairMem .sp 0x4100) { boot with mem := [(0x4101, 0xFF)] } (fun t =>
        t.sp == 0xFF00 && t.pc == 0x4004 && t.tstates == 20 && t.r == 0x02 && t.main.f == boot.main.f) = true :=
          by decide

/-- V42.9 (R244), `LD IY,(0x4100)`. -/
theorem test_v42_9_ldXYMem :
    ran (.ldXYMem .iy 0x4100) { boot with mem := [(0x4100, 0x78), (0x4101, 0x56)] } (fun t =>
        t.iy == 0x5678 && t.pc == 0x4004 && t.tstates == 20 && t.r == 0x02 && t.main.f == boot.main.f) = true :=
          by decide

/-- V42.10 (R245), `LD (0x4100),HL`. -/
theorem test_v42_10_ldMemHL :
    ran (.ldMemHL 0x4100) { boot with main := { RegSet.zero with h := 0xBE, l := 0xEF } } (fun t =>
        t.pc == 0x4003 && t.readByte 0x4100 == 0xEF && t.readByte 0x4101 == 0xBE && t.tstates == 16 && t.r ==
          0x01 && t.main.f == boot.main.f) = true := by decide

/-- V42.12 (R246), `LD (0x4100),SP`. -/
theorem test_v42_12_ldMemPair :
    ran (.ldMemPair .sp 0x4100) { boot with sp := 0x7FF0 } (fun t =>
        t.pc == 0x4004 && t.readByte 0x4100 == 0xF0 && t.readByte 0x4101 == 0x7F && t.tstates == 20 && t.r ==
          0x02 && t.main.f == boot.main.f) = true := by decide

/-- V42.13 (R247), `LD (0x4110),IX`. -/
theorem test_v42_13_ldMemXY :
    ran (.ldMemXY .ix 0x4110) { boot with ix := 0x1234 } (fun t =>
        t.pc == 0x4004 && t.readByte 0x4110 == 0x34 && t.readByte 0x4111 == 0x12 && t.tstates == 20 && t.r ==
          0x02 && t.main.f == boot.main.f) = true := by decide

/-- V42.14 (R248), `LD SP,HL`. -/
theorem test_v42_14_ldSPHL :
    ran .ldSPHL { boot with main := { RegSet.zero with h := 0x90 } } (fun t =>
        t.sp == 0x9000 && t.pc == 0x4001 && t.tstates == 6 && t.r == 0x01 && t.main.f == boot.main.f) = true :=
          by decide

/-- V42.15 (R249), `LD SP,IY`. -/
theorem test_v42_15_ldSPXY :
    ran (.ldSPXY .iy) { boot with iy := 0xFF00 } (fun t =>
        t.sp == 0xFF00 && t.pc == 0x4002 && t.tstates == 10 && t.r == 0x02 && t.main.f == boot.main.f) = true :=
          by decide

/-- V42.16 (R251), `PUSH BC`. -/
theorem test_v42_16_pushPair :
    ran (.pushPair .bc) { boot with main := { RegSet.zero with b := 0x12, c := 0x34 } } (fun t =>
        t.sp == 0x7FFE && t.pc == 0x4001 && t.readByte 0x7FFE == 0x34 && t.readByte 0x7FFF == 0x12 && t.tstates
          == 11 && t.r == 0x01 && t.main.f == boot.main.f) = true := by decide

/-- V42.20 (R252), `PUSH IX`. -/
theorem test_v42_20_pushXY :
    ran (.pushXY .ix) { boot with ix := 0xABCD } (fun t =>
        t.sp == 0x7FFE && t.pc == 0x4002 && t.readByte 0x7FFE == 0xCD && t.readByte 0x7FFF == 0xAB && t.tstates
          == 15 && t.r == 0x02 && t.main.f == boot.main.f) = true := by decide

/-- V42.21 (R253), `POP AF`. -/
theorem test_v42_21_popPair :
    ran (.popPair .af) { boot with sp := 0x7FFE, mem := [(0x7FFE, 0xD7), (0x7FFF, 0x01)] } (fun t =>
        t.main.a == 0x01 && t.main.f.s && t.main.f.z && !t.main.f.y && t.main.f.h && !t.main.f.x && t.main.f.pv
          && t.main.f.n && t.main.f.c && t.sp == 0x8000 && t.pc == 0x4001 && t.tstates == 10 && t.r == 0x01) =
          true := by decide

/-- V42.23 (R254), `POP IY`. -/
theorem test_v42_23_popXY :
    ran (.popXY .iy) { boot with sp := 0x7FFE, mem := [(0x7FFE, 0xCD), (0x7FFF, 0xAB)] } (fun t =>
        t.iy == 0xABCD && t.sp == 0x8000 && t.pc == 0x4002 && t.tstates == 14 && t.r == 0x02 && t.main.f ==
          boot.main.f) = true := by decide

/-- V43.1 (R280), `EX DE,HL`. -/
theorem test_v43_1_exDEHL :
    ran .exDEHL { boot with main := { RegSet.zero with d := 0x11, e := 0x11, h := 0x22, l := 0x22 } } (fun t =>
        t.main.d == 0x22 && t.main.e == 0x22 && t.main.h == 0x11 && t.main.l == 0x11 && t.pc == 0x4001 &&
          t.tstates == 4 && t.r == 0x01 && t.main.f == boot.main.f) = true := by decide

/-- V43.3 (R281), `EX AF,AF'`. -/
theorem test_v43_3_exAFAF :
    ran .exAFAF
      { boot with
        main := { RegSet.zero with a := 0x12, f := Flags.ofByte 0x34 }
        alt := { RegSet.zero with a := 0x56, f := Flags.ofByte 0x78 } }
      (fun t =>
        t.main.a == 0x56 && !t.main.f.s && t.main.f.z && t.main.f.y && t.main.f.h && t.main.f.x && !t.main.f.pv
          && !t.main.f.n && !t.main.f.c && t.alt.a == 0x12 && !t.alt.f.s && !t.alt.f.z && t.alt.f.y && t.alt.f.h
          && !t.alt.f.x && t.alt.f.pv && !t.alt.f.n && !t.alt.f.c && t.pc == 0x4001 && t.tstates == 4 && t.r ==
          0x01) = true := by decide

/-- V43.5 (R283), `EX (SP),HL`. -/
theorem test_v43_5_exSPHL :
    ran .exSPHL
      { boot with
        main := { RegSet.zero with h := 0xAB, l := 0xCD }
        mem := [(0x8000, 0x34), (0x8001, 0x12)] }
      (fun t =>
        t.main.h == 0x12 && t.main.l == 0x34 && t.pc == 0x4001 && t.readByte 0x8000 == 0xCD && t.readByte 0x8001
          == 0xAB && t.tstates == 19 && t.r == 0x01 && t.main.f == boot.main.f) = true := by decide

/-- V43.7 (R284), `EX (SP),IX`. -/
theorem test_v43_7_exSPXY :
    ran (.exSPXY .ix) { boot with ix := 0xABCD, mem := [(0x8000, 0x34), (0x8001, 0x12)] } (fun t =>
        t.ix == 0x1234 && t.pc == 0x4002 && t.readByte 0x8000 == 0xCD && t.readByte 0x8001 == 0xAB && t.tstates
          == 23 && t.r == 0x02 && t.main.f == boot.main.f) = true := by decide

/-- V43.8 (R286), `LDI`. -/
theorem test_v43_8_ldi :
    ran .ldi
      { boot with
        main := { RegSet.zero with c := 0x02, d := 0x50, h := 0x41 }
        mem := [(0x4100, 0x11)] }
      (fun t =>
        !t.main.f.s && !t.main.f.z && !t.main.f.h && t.main.f.pv && !t.main.f.n && !t.main.f.c && t.main.c ==
          0x01 && t.main.e == 0x01 && t.main.l == 0x01 && t.pc == 0x4002 && t.readByte 0x5000 == 0x11 &&
          t.tstates == 16 && t.r == 0x02) = true := by decide

/-- V43.13 (R287), `LDIR, one step of three`. -/
theorem test_v43_13_ldir :
    ran .ldir
      { boot with
        main := { RegSet.zero with c := 0x03, d := 0x50, h := 0x41 }
        mem := [(0x4100, 0xA1)] }
      (fun t =>
        !t.main.f.s && !t.main.f.z && !t.main.f.h && t.main.f.pv && !t.main.f.n && !t.main.f.c && t.main.c ==
          0x02 && t.main.e == 0x01 && t.main.l == 0x01 && t.pc == 0x4000 && t.readByte 0x5000 == 0xA1 &&
          t.tstates == 21 && t.r == 0x02) = true := by decide

/-- V43.15 (R288), `LDD`. -/
theorem test_v43_15_ldd :
    ran .ldd
      { boot with
        main := { RegSet.zero with c := 0x01, d := 0x50, e := 0x01, h := 0x41, l := 0x01 }
        mem := [(0x4101, 0x22)] }
      (fun t =>
        !t.main.f.s && !t.main.f.z && !t.main.f.h && !t.main.f.pv && !t.main.f.n && !t.main.f.c && t.main.c ==
          0x00 && t.main.e == 0x00 && t.main.l == 0x00 && t.pc == 0x4002 && t.readByte 0x5001 == 0x22 &&
          t.tstates == 16 && t.r == 0x02) = true := by decide

/-- V43.17 (R290), `CPI match`. -/
theorem test_v43_17_cpi :
    ran .cpi
      { boot with
        main := { RegSet.zero with a := 0x41, c := 0x05, h := 0x41, f := Flags.ofByte 0x01 }
        mem := [(0x4100, 0x41)] }
      (fun t =>
        !t.main.f.s && t.main.f.z && !t.main.f.h && t.main.f.pv && t.main.f.n && t.main.f.c && t.main.c == 0x04
          && t.main.l == 0x01 && t.pc == 0x4002 && t.tstates == 16 && t.r == 0x02) = true := by decide

/-- V43.20 (R292), `CPD`. -/
theorem test_v43_20_cpd :
    ran .cpd
      { boot with
        main := { RegSet.zero with a := 0x10, c := 0x02, h := 0x41 }
        mem := [(0x4100, 0x20)] }
      (fun t =>
        t.main.f.s && !t.main.f.z && !t.main.f.h && t.main.f.pv && t.main.f.n && !t.main.f.c && t.main.c == 0x01
          && t.main.h == 0x40 && t.main.l == 0xFF && t.pc == 0x4002 && t.tstates == 16 && t.r == 0x02) = true :=
          by decide

/-- V43.21 (R293), `CPDR, BC=1, no match`. -/
theorem test_v43_21_cpdr :
    ran .cpdr
      { boot with
        main := { RegSet.zero with a := 0x10, c := 0x01, h := 0x41 }
        mem := [(0x4100, 0x20)] }
      (fun t =>
        t.main.f.s && !t.main.f.z && !t.main.f.h && !t.main.f.pv && t.main.f.n && !t.main.f.c && t.main.c == 0x00
          && t.main.h == 0x40 && t.main.l == 0xFF && t.pc == 0x4002 && t.tstates == 16 && t.r == 0x02) = true :=
          by decide

/-- V44.1 (R323), `ADD A,B overflow`. -/
theorem test_v44_1_addR :
    ran (.addR .b) { boot with main := { RegSet.zero with a := 0x7F, b := 0x01 } } (fun t =>
        t.main.a == 0x80 && t.main.f.s && !t.main.f.z && t.main.f.h && t.main.f.pv && !t.main.f.n && !t.main.f.c
          && t.pc == 0x4001 && t.tstates == 4 && t.r == 0x01) = true := by decide

/-- V44.7 (R324), `ADC A,0 with C=1`. -/
theorem test_v44_7_adcN :
    ran (.adcN 0x00) { boot with main := { RegSet.zero with a := 0xFF, f := Flags.ofByte 0x01 } } (fun t =>
        t.main.a == 0x00 && !t.main.f.s && t.main.f.z && t.main.f.h && !t.main.f.pv && !t.main.f.n && t.main.f.c
          && t.pc == 0x4002 && t.tstates == 7 && t.r == 0x01) = true := by decide

/-- V44.9 (R325), `SUB 1 from 0`. -/
theorem test_v44_9_subN :
    ran (.subN 0x01) boot (fun t =>
        t.main.a == 0xFF && t.main.f.s && !t.main.f.z && t.main.f.h && !t.main.f.pv && t.main.f.n && t.main.f.c
          && t.pc == 0x4002 && t.tstates == 7 && t.r == 0x01) = true := by decide

/-- V44.12 (R326), `SBC A,B with C=1`. -/
theorem test_v44_12_sbcR :
    ran (.sbcR .b) { boot with main := { RegSet.zero with a := 0x80, f := Flags.ofByte 0x01 } } (fun t =>
        t.main.a == 0x7F && !t.main.f.s && !t.main.f.z && t.main.f.h && t.main.f.pv && t.main.f.n && !t.main.f.c
          && t.pc == 0x4001 && t.tstates == 4 && t.r == 0x01) = true := by decide

/-- V44.14 (R327), `AND 0x3C`. -/
theorem test_v44_14_andN :
    ran (.andN 0x3C) { boot with main := { RegSet.zero with a := 0xF0, f := Flags.ofByte 0x01 } } (fun t =>
        t.main.a == 0x30 && !t.main.f.s && !t.main.f.z && t.main.f.h && t.main.f.pv && !t.main.f.n && !t.main.f.c
          && t.pc == 0x4002 && t.tstates == 7 && t.r == 0x01) = true := by decide

/-- V44.16 (R328), `XOR A`. -/
theorem test_v44_16_xorR :
    ran (.xorR .a) { boot with main := { RegSet.zero with a := 0x5A, f := Flags.ofByte 0x01 } } (fun t =>
        t.main.a == 0x00 && !t.main.f.s && t.main.f.z && !t.main.f.h && t.main.f.pv && !t.main.f.n && !t.main.f.c
          && t.pc == 0x4001 && t.tstates == 4 && t.r == 0x01) = true := by decide

/-- V44.18 (R329), `OR 0x01`. -/
theorem test_v44_18_orN :
    ran (.orN 0x01) { boot with main := { RegSet.zero with a := 0x80 } } (fun t =>
        t.main.a == 0x81 && t.main.f.s && !t.main.f.z && !t.main.f.h && t.main.f.pv && !t.main.f.n && !t.main.f.c
          && t.pc == 0x4002 && t.tstates == 7 && t.r == 0x01) = true := by decide

/-- V44.20 (R330), `CP 0x20`. -/
theorem test_v44_20_cpN :
    ran (.cpN 0x20) { boot with main := { RegSet.zero with a := 0x10 } } (fun t =>
        t.main.f.s && !t.main.f.z && !t.main.f.h && !t.main.f.pv && t.main.f.n && t.main.f.c && t.pc == 0x4002 &&
          t.tstates == 7 && t.r == 0x01) = true := by decide

/-- V44.23 (R331), `INC B 0x7F`. -/
theorem test_v44_23_incR :
    ran (.incR .b) { boot with main := { RegSet.zero with b := 0x7F } } (fun t =>
        t.main.f.s && !t.main.f.z && t.main.f.h && t.main.f.pv && !t.main.f.n && !t.main.f.c && t.main.b == 0x80
          && t.pc == 0x4001 && t.tstates == 4 && t.r == 0x01) = true := by decide

/-- V44.26 (R332), `INC (HL)`. -/
theorem test_v44_26_incIndHL :
    ran .incIndHL { boot with main := { RegSet.zero with h := 0x41 }, mem := [(0x4100, 0x0F)] } (fun t =>
        !t.main.f.s && !t.main.f.z && t.main.f.h && !t.main.f.pv && !t.main.f.n && !t.main.f.c && t.pc == 0x4001
          && t.readByte 0x4100 == 0x10 && t.tstates == 11 && t.r == 0x01) = true := by decide

/-- V44.28 (R333), `INC (IX+3)`. -/
theorem test_v44_28_incIndXY :
    ran (.incIndXY .ix 0x03) { boot with ix := 0x4100, mem := [(0x4103, 0xFF)] } (fun t =>
        !t.main.f.s && t.main.f.z && t.main.f.h && !t.main.f.pv && !t.main.f.n && !t.main.f.c && t.pc == 0x4003
          && t.readByte 0x4103 == 0x00 && t.tstates == 23 && t.r == 0x02) = true := by decide

/-- V44.29 (R334), `DEC B 0x01`. -/
theorem test_v44_29_decR :
    ran (.decR .b) { boot with main := { RegSet.zero with b := 0x01 } } (fun t =>
        !t.main.f.s && t.main.f.z && !t.main.f.h && !t.main.f.pv && t.main.f.n && !t.main.f.c && t.main.b == 0x00
          && t.pc == 0x4001 && t.tstates == 4 && t.r == 0x01) = true := by decide

/-- V44.33 (R335), `DEC (HL)`. -/
theorem test_v44_33_decIndHL :
    ran .decIndHL { boot with main := { RegSet.zero with h := 0x41 }, mem := [(0x4100, 0x10)] } (fun t =>
        !t.main.f.s && !t.main.f.z && t.main.f.h && !t.main.f.pv && t.main.f.n && !t.main.f.c && t.pc == 0x4001
          && t.readByte 0x4100 == 0x0F && t.tstates == 11 && t.r == 0x01) = true := by decide

/-- V44.34 (R336), `DEC (IY-1) quad mirror`. -/
theorem test_v44_34_decIndXY :
    ran (.decIndXY .iy 0xFF)
      { boot with
        iy := 0x4000
        pc := 0x4100
        mem := [(0x33FF, 0x80), (0x37FF, 0x80), (0x3BFF, 0x80), (0x3FFF, 0x80)] }
      (fun t =>
        !t.main.f.s && !t.main.f.z && t.main.f.h && t.main.f.pv && t.main.f.n && !t.main.f.c && t.pc == 0x4103 &&
          t.readByte 0x33FF == 0x7F && t.readByte 0x37FF == 0x7F && t.readByte 0x3BFF == 0x7F && t.readByte
          0x3FFF == 0x7F && t.tstates == 23 && t.r == 0x02) = true := by decide

/-- V45.4 (R360), `DAA on 0x9A`. -/
theorem test_v45_4_daa :
    ran .daa { boot with main := { RegSet.zero with a := 0x9A } } (fun t =>
        t.main.a == 0x00 && !t.main.f.s && t.main.f.z && t.main.f.h && t.main.f.pv && !t.main.f.n && t.main.f.c
          && t.pc == 0x4001 && t.tstates == 4 && t.r == 0x01) = true := by decide

/-- V45.6 (R361), `CPL`. -/
theorem test_v45_6_cpl :
    ran .cpl { boot with main := { RegSet.zero with a := 0x5A } } (fun t =>
        t.main.a == 0xA5 && !t.main.f.s && !t.main.f.z && t.main.f.h && !t.main.f.pv && t.main.f.n && !t.main.f.c
          && t.pc == 0x4001 && t.tstates == 4 && t.r == 0x01) = true := by decide

/-- V45.7 (R362), `NEG 0x01`. -/
theorem test_v45_7_neg :
    ran .neg { boot with main := { RegSet.zero with a := 0x01 } } (fun t =>
        t.main.a == 0xFF && t.main.f.s && !t.main.f.z && t.main.f.h && !t.main.f.pv && t.main.f.n && t.main.f.c
          && t.pc == 0x4002 && t.tstates == 8 && t.r == 0x02) = true := by decide

/-- V45.11 (R363), `CCF with C=1`. -/
theorem test_v45_11_ccf :
    ran .ccf { boot with main := { RegSet.zero with f := Flags.ofByte 0x01 } } (fun t =>
        !t.main.f.s && !t.main.f.z && t.main.f.h && !t.main.f.pv && !t.main.f.n && !t.main.f.c && t.pc == 0x4001
          && t.tstates == 4 && t.r == 0x01) = true := by decide

/-- V45.13 (R364), `SCF`. -/
theorem test_v45_13_scf :
    ran .scf { boot with main := { RegSet.zero with f := Flags.ofByte 0x12 } } (fun t =>
        !t.main.f.s && !t.main.f.z && !t.main.f.h && !t.main.f.pv && !t.main.f.n && t.main.f.c && t.pc == 0x4001
          && t.tstates == 4 && t.r == 0x01) = true := by decide

/-- V45.14 (R365), `NOP`. -/
theorem test_v45_14_nop :
    ran .nop boot (fun t =>
        t.pc == 0x4001 && t.tstates == 4 && t.r == 0x01 && t.main.f == boot.main.f) = true := by decide

/-- V45.16 (R366), `HALT`. -/
theorem test_v45_16_halt :
    ran .halt boot (fun t =>
        t.pc == 0x4001 && t.halted && t.tstates == 4 && t.r == 0x01 && t.main.f == boot.main.f) = true := by
          decide

/-- V45.19 (R367), `DI`. -/
theorem test_v45_19_di :
    ran .di { boot with iff1 := true, iff2 := true } (fun t =>
        t.pc == 0x4001 && !t.iff1 && !t.iff2 && t.tstates == 4 && t.r == 0x01 && t.main.f == boot.main.f) = true
          := by decide

/-- V45.20 (R368), `EI`. -/
theorem test_v45_20_ei :
    ran .ei boot (fun t =>
        t.pc == 0x4001 && t.iff1 && t.iff2 && t.tstates == 4 && t.r == 0x01 && t.main.f == boot.main.f) = true :=
          by decide

/-- V45.21 (R369), `IM 2`. -/
theorem test_v45_21_im2 :
    ran .im2 boot (fun t =>
        t.pc == 0x4002 && t.im == 2 && t.tstates == 8 && t.r == 0x02 && t.main.f == boot.main.f) = true := by
          decide

/-- V45.24 (R370), `ED 00 hole`. -/
theorem test_v45_24_edHole :
    ran (.edHole 0x00) boot (fun t =>
        t.pc == 0x4002 && t.tstates == 8 && t.r == 0x02 && t.main.f == boot.main.f) = true := by decide

/-- V46.1 (R400), `ADD HL,BC half carry`. -/
theorem test_v46_1_addHLPair :
    ran (.addHLPair .bc) { boot with main := { RegSet.zero with c := 0x01, h := 0x0F, l := 0xFF } } (fun t =>
        !t.main.f.s && !t.main.f.z && t.main.f.h && !t.main.f.pv && !t.main.f.n && !t.main.f.c && t.main.h ==
          0x10 && t.main.l == 0x00 && t.pc == 0x4001 && t.tstates == 11 && t.r == 0x01) = true := by decide

/-- V46.3 (R401), `ADC HL,DE overflow`. -/
theorem test_v46_3_adcHLPair :
    ran (.adcHLPair .de)
      { boot with
        main := { RegSet.zero with h := 0x7F, l := 0xFF, f := Flags.ofByte 0x01 } }
      (fun t =>
        t.main.f.s && !t.main.f.z && t.main.f.h && t.main.f.pv && !t.main.f.n && !t.main.f.c && t.main.h == 0x80
          && t.main.l == 0x00 && t.pc == 0x4002 && t.tstates == 15 && t.r == 0x02) = true := by decide

/-- V46.5 (R402), `SBC HL,DE`. -/
theorem test_v46_5_sbcHLPair :
    ran (.sbcHLPair .de) { boot with main := { RegSet.zero with e := 0x01, h := 0x10 } } (fun t =>
        !t.main.f.s && !t.main.f.z && t.main.f.h && !t.main.f.pv && t.main.f.n && !t.main.f.c && t.main.h == 0x0F
          && t.main.l == 0xFF && t.pc == 0x4002 && t.tstates == 15 && t.r == 0x02) = true := by decide

/-- V46.8 (R403), `ADD IX,SP`. -/
theorem test_v46_8_addXYPair :
    ran (.addXYPair .ix .sp) { boot with ix := 0x8000 } (fun t =>
        !t.main.f.s && !t.main.f.z && !t.main.f.h && !t.main.f.pv && !t.main.f.n && t.main.f.c && t.ix == 0x0000
          && t.pc == 0x4002 && t.tstates == 15 && t.r == 0x02) = true := by decide

/-- V46.11 (R404), `INC SP wraps`. -/
theorem test_v46_11_incPair :
    ran (.incPair .sp) { boot with sp := 0xFFFF } (fun t =>
        t.sp == 0x0000 && t.pc == 0x4001 && t.tstates == 6 && t.r == 0x01 && t.main.f == boot.main.f) = true :=
          by decide

/-- V46.13 (R405), `INC IX`. -/
theorem test_v46_13_incXY :
    ran (.incXY .ix) { boot with ix := 0x00FF } (fun t =>
        t.ix == 0x0100 && t.pc == 0x4002 && t.tstates == 10 && t.r == 0x02 && t.main.f == boot.main.f) = true :=
          by decide

/-- V46.14 (R406), `DEC BC to zero, flags kept`. -/
theorem test_v46_14_decPair :
    ran (.decPair .bc) { boot with main := { RegSet.zero with c := 0x01 } } (fun t =>
        t.main.c == 0x00 && t.pc == 0x4001 && t.tstates == 6 && t.r == 0x01 && t.main.f == boot.main.f) = true :=
          by decide

/-- V46.16 (R407), `DEC IY wraps`. -/
theorem test_v46_16_decXY :
    ran (.decXY .iy) boot (fun t =>
        t.iy == 0xFFFF && t.pc == 0x4002 && t.tstates == 10 && t.r == 0x02 && t.main.f == boot.main.f) = true :=
          by decide

/-- V47.1 (R440), `RLCA`. -/
theorem test_v47_1_rlca :
    ran .rlca { boot with main := { RegSet.zero with a := 0x81, f := Flags.ofByte 0xC4 } } (fun t =>
        t.main.a == 0x03 && t.main.f.s && t.main.f.z && !t.main.f.h && t.main.f.pv && !t.main.f.n && t.main.f.c
          && t.pc == 0x4001 && t.tstates == 4 && t.r == 0x01) = true := by decide

/-- V47.2 (R441), `RLA`. -/
theorem test_v47_2_rla :
    ran .rla { boot with main := { RegSet.zero with a := 0x80 } } (fun t =>
        t.main.a == 0x00 && !t.main.f.s && !t.main.f.z && !t.main.f.h && !t.main.f.pv && !t.main.f.n &&
          t.main.f.c && t.pc == 0x4001 && t.tstates == 4 && t.r == 0x01) = true := by decide

/-- V47.3 (R442), `RRCA`. -/
theorem test_v47_3_rrca :
    ran .rrca { boot with main := { RegSet.zero with a := 0x01 } } (fun t =>
        t.main.a == 0x80 && !t.main.f.s && !t.main.f.z && !t.main.f.h && !t.main.f.pv && !t.main.f.n &&
          t.main.f.c && t.pc == 0x4001 && t.tstates == 4 && t.r == 0x01) = true := by decide

/-- V47.4 (R443), `RRA`. -/
theorem test_v47_4_rra :
    ran .rra { boot with main := { RegSet.zero with a := 0x01, f := Flags.ofByte 0x01 } } (fun t =>
        t.main.a == 0x80 && !t.main.f.s && !t.main.f.z && !t.main.f.h && !t.main.f.pv && !t.main.f.n &&
          t.main.f.c && t.pc == 0x4001 && t.tstates == 4 && t.r == 0x01) = true := by decide

/-- V47.5 (R445), `RLC B`. -/
theorem test_v47_5_rlcR :
    ran (.rlcR .b) { boot with main := { RegSet.zero with b := 0x80 } } (fun t =>
        !t.main.f.s && !t.main.f.z && !t.main.f.h && !t.main.f.pv && !t.main.f.n && t.main.f.c && t.main.b ==
          0x01 && t.pc == 0x4002 && t.tstates == 8 && t.r == 0x02) = true := by decide

/-- V47.8 (R446), `RRC C`. -/
theorem test_v47_8_rrcR :
    ran (.rrcR .c) { boot with main := { RegSet.zero with c := 0x01 } } (fun t =>
        t.main.f.s && !t.main.f.z && !t.main.f.h && !t.main.f.pv && !t.main.f.n && t.main.f.c && t.main.c == 0x80
          && t.pc == 0x4002 && t.tstates == 8 && t.r == 0x02) = true := by decide

/-- V47.9 (R447), `RL D`. -/
theorem test_v47_9_rlR :
    ran (.rlR .d) { boot with main := { RegSet.zero with d := 0x80 } } (fun t =>
        !t.main.f.s && t.main.f.z && !t.main.f.h && t.main.f.pv && !t.main.f.n && t.main.f.c && t.main.d == 0x00
          && t.pc == 0x4002 && t.tstates == 8 && t.r == 0x02) = true := by decide

/-- V47.10 (R448), `RR E`. -/
theorem test_v47_10_rrR :
    ran (.rrR .e) { boot with main := { RegSet.zero with e := 0x01, f := Flags.ofByte 0x01 } } (fun t =>
        t.main.f.s && !t.main.f.z && !t.main.f.h && !t.main.f.pv && !t.main.f.n && t.main.f.c && t.main.e == 0x80
          && t.pc == 0x4002 && t.tstates == 8 && t.r == 0x02) = true := by decide

/-- V47.11 (R449), `SLA H`. -/
theorem test_v47_11_slaR :
    ran (.slaR .h) { boot with main := { RegSet.zero with h := 0xC0 } } (fun t =>
        t.main.f.s && !t.main.f.z && !t.main.f.h && !t.main.f.pv && !t.main.f.n && t.main.f.c && t.main.h == 0x80
          && t.pc == 0x4002 && t.tstates == 8 && t.r == 0x02) = true := by decide

/-- V47.12 (R450), `SRA L`. -/
theorem test_v47_12_sraR :
    ran (.sraR .l) { boot with main := { RegSet.zero with l := 0x81 } } (fun t =>
        t.main.f.s && !t.main.f.z && !t.main.f.h && t.main.f.pv && !t.main.f.n && t.main.f.c && t.main.l == 0xC0
          && t.pc == 0x4002 && t.tstates == 8 && t.r == 0x02) = true := by decide

/-- V47.14 (R451), `SLL A`. -/
theorem test_v47_14_sllR :
    ran (.sllR .a) { boot with main := { RegSet.zero with a := 0x80 } } (fun t =>
        t.main.a == 0x01 && !t.main.f.s && !t.main.f.z && !t.main.f.h && !t.main.f.pv && !t.main.f.n &&
          t.main.f.c && t.pc == 0x4002 && t.tstates == 8 && t.r == 0x02) = true := by decide

/-- V47.16 (R452), `SRL A`. -/
theorem test_v47_16_srlR :
    ran (.srlR .a) { boot with main := { RegSet.zero with a := 0x01 } } (fun t =>
        t.main.a == 0x00 && !t.main.f.s && t.main.f.z && !t.main.f.h && t.main.f.pv && !t.main.f.n && t.main.f.c
          && t.pc == 0x4002 && t.tstates == 8 && t.r == 0x02) = true := by decide

/-- V47.18 (R444), `RLC (IX+0) to B, EA in ROM`. -/
theorem test_v47_18_rlcIndXYR :
    ran (.rlcIndXYR .ix 0x00 .b) { boot with ix := 0x0100, mem := [(0x0100, 0x81)] } (fun t =>
        !t.main.f.s && !t.main.f.z && !t.main.f.h && t.main.f.pv && !t.main.f.n && t.main.f.c && t.main.b == 0x03
          && t.pc == 0x4004 && t.tstates == 23 && t.r == 0x02) = true := by decide

/-- V47.19 (R453), `RLD`. -/
theorem test_v47_19_rld :
    ran .rld { boot with main := { RegSet.zero with a := 0x12, h := 0x41 }, mem := [(0x4100, 0x34)] } (fun t =>
        t.main.a == 0x13 && !t.main.f.s && !t.main.f.z && !t.main.f.h && !t.main.f.pv && !t.main.f.n &&
          !t.main.f.c && t.pc == 0x4002 && t.readByte 0x4100 == 0x42 && t.tstates == 18 && t.r == 0x02) = true :=
          by decide

/-- V47.21 (R454), `RRD`. -/
theorem test_v47_21_rrd :
    ran .rrd { boot with main := { RegSet.zero with a := 0x12, h := 0x41 }, mem := [(0x4100, 0x34)] } (fun t =>
        t.main.a == 0x14 && !t.main.f.s && !t.main.f.z && !t.main.f.h && t.main.f.pv && !t.main.f.n &&
          !t.main.f.c && t.pc == 0x4002 && t.readByte 0x4100 == 0x23 && t.tstates == 18 && t.r == 0x02) = true :=
          by decide

/-- V47.23 (R455), `BIT 7,A set`. -/
theorem test_v47_23_bitR :
    ran (.bitR 7 .a) { boot with main := { RegSet.zero with a := 0x80, f := Flags.ofByte 0x01 } } (fun t =>
        !t.main.f.z && t.main.f.h && !t.main.f.n && t.main.f.c && t.pc == 0x4002 && t.tstates == 8 && t.r ==
          0x02) = true := by decide

/-- V47.27 (R456), `SET 0,(HL)`. -/
theorem test_v47_27_setIndHL :
    ran (.setIndHL 0) { boot with main := { RegSet.zero with h := 0x41 } } (fun t =>
        t.pc == 0x4002 && t.readByte 0x4100 == 0x01 && t.tstates == 15 && t.r == 0x02 && t.main.f == boot.main.f)
          = true := by decide

/-- V47.30 (R457), `RES 0,(IX+1)`. -/
theorem test_v47_30_resIndXY :
    ran (.resIndXY .ix 0x01 0) { boot with ix := 0x4100, mem := [(0x4101, 0xFF)] } (fun t =>
        t.pc == 0x4004 && t.readByte 0x4101 == 0xFE && t.tstates == 23 && t.r == 0x02 && t.main.f == boot.main.f)
          = true := by decide

/-- V48.1 (R500), `JP 0x4000 (to itself)`. -/
theorem test_v48_1_jp :
    ran (.jp 0x4000) boot (fun t =>
        t.pc == 0x4000 && t.tstates == 10 && t.r == 0x01 && t.main.f == boot.main.f) = true := by decide

/-- V48.2 (R501), `JP Z not taken`. -/
theorem test_v48_2_jpCond :
    ran (.jpCond .z 0x5000) boot (fun t =>
        t.pc == 0x4003 && t.tstates == 10 && t.r == 0x01 && t.main.f == boot.main.f) = true := by decide

/-- V48.6 (R502), `JR +5`. -/
theorem test_v48_6_jr :
    ran (.jr 0x05) boot (fun t =>
        t.pc == 0x4007 && t.tstates == 12 && t.r == 0x01 && t.main.f == boot.main.f) = true := by decide

/-- V48.10 (R503), `JR C taken`. -/
theorem test_v48_10_jrCond :
    ran (.jrCond .c 0x10) { boot with main := { RegSet.zero with f := Flags.ofByte 0x01 } } (fun t =>
        t.pc == 0x4012 && t.tstates == 12 && t.r == 0x01 && t.main.f == Flags.ofByte 0x01) = true := by decide

/-- V48.13 (R504), `JP (HL)`. -/
theorem test_v48_13_jpHL :
    ran .jpHL { boot with main := { RegSet.zero with h := 0x12, l := 0x34 } } (fun t =>
        t.pc == 0x1234 && t.tstates == 4 && t.r == 0x01 && t.main.f == boot.main.f) = true := by decide

/-- V48.14 (R505), `JP (IX)`. -/
theorem test_v48_14_jpXY :
    ran (.jpXY .ix) { boot with main := { RegSet.zero with h := 0x12, l := 0x34 }, ix := 0x8000 } (fun t =>
        t.pc == 0x8000 && t.tstates == 8 && t.r == 0x02 && t.main.f == boot.main.f) = true := by decide

/-- V48.16 (R506), `DJNZ B=0 jumps`. -/
theorem test_v48_16_djnz :
    ran (.djnz 0xFE) boot (fun t =>
        t.main.b == 0xFF && t.pc == 0x4000 && t.tstates == 13 && t.r == 0x01 && t.main.f == boot.main.f) = true
          := by decide

/-- V48.18 (R507), `CALL 0x1234`. -/
theorem test_v48_18_call :
    ran (.call 0x1234) boot (fun t =>
        t.sp == 0x7FFE && t.pc == 0x1234 && t.readByte 0x7FFE == 0x03 && t.readByte 0x7FFF == 0x40 && t.tstates
          == 17 && t.r == 0x01 && t.main.f == boot.main.f) = true := by decide

/-- V48.20 (R508), `CALL NZ taken`. -/
theorem test_v48_20_callCond :
    ran (.callCond .nz 0x5000) boot (fun t =>
        t.sp == 0x7FFE && t.pc == 0x5000 && t.readByte 0x7FFE == 0x03 && t.readByte 0x7FFF == 0x40 && t.tstates
          == 17 && t.r == 0x01 && t.main.f == boot.main.f) = true := by decide

/-- V48.22 (R509), `RET`. -/
theorem test_v48_22_ret :
    ran .ret { boot with sp := 0x7FFE, mem := [(0x7FFE, 0x03), (0x7FFF, 0x40)] } (fun t =>
        t.sp == 0x8000 && t.pc == 0x4003 && t.tstates == 10 && t.r == 0x01 && t.main.f == boot.main.f) = true :=
          by decide

/-- V48.24 (R510), `RET C taken`. -/
theorem test_v48_24_retCond :
    ran (.retCond .c)
      { boot with
        main := { RegSet.zero with f := Flags.ofByte 0x01 }
        sp := 0x7FFE
        mem := [(0x7FFE, 0x03), (0x7FFF, 0x40)] }
      (fun t =>
        t.sp == 0x8000 && t.pc == 0x4003 && t.tstates == 11 && t.r == 0x01 && t.main.f == Flags.ofByte 0x01) =
          true := by decide

/-- V48.27 (R530), `RETI, IFF2=1`. -/
theorem test_v48_27_reti :
    ran .reti { boot with sp := 0x7FFE, iff2 := true, mem := [(0x7FFF, 0x41)] } (fun t =>
        t.sp == 0x8000 && t.pc == 0x4100 && t.iff1 && t.tstates == 14 && t.r == 0x02 && t.main.f == boot.main.f)
          = true := by decide

/-- V48.28 (R531), `RETN, IFF2=0`. -/
theorem test_v48_28_retn :
    ran .retn { boot with sp := 0x7FFE, iff1 := true, mem := [(0x7FFF, 0x41)] } (fun t =>
        t.sp == 0x8000 && t.pc == 0x4100 && !t.iff1 && t.tstates == 14 && t.r == 0x02 && t.main.f == boot.main.f)
          = true := by decide

/-- V48.30 (R532), `RST 28h`. -/
theorem test_v48_30_rst :
    ran (.rst 5) boot (fun t =>
        t.sp == 0x7FFE && t.pc == 0x0028 && t.readByte 0x7FFE == 0x01 && t.readByte 0x7FFF == 0x40 && t.tstates
          == 11 && t.r == 0x01 && t.main.f == boot.main.f) = true := by decide

/-- V49.2 (R561), `IN A,(0xFE), A=0x01: open bus`. -/
theorem test_v49_2_inAN :
    ran (.inAN 0xFE) { boot with main := { RegSet.zero with a := 0x01 } } (fun t =>
        t.main.a == 0xFF && t.pc == 0x4002 && t.tstates == 11 && t.r == 0x01 && t.main.f == boot.main.f) = true
          := by decide

/-- V49.8 (R562), `IN D,(C), BC=0x0000`. -/
theorem test_v49_8_inRC :
    ran (.inRC .d) boot (fun t =>
        t.main.f.s && !t.main.f.z && !t.main.f.h && t.main.f.pv && !t.main.f.n && !t.main.f.c && t.main.d == 0xFF
          && t.pc == 0x4002 && t.tstates == 12 && t.r == 0x02) = true := by decide

/-- V49.9 (R563), `IN F,(C)`. -/
theorem test_v49_9_inFC :
    ran .inFC { boot with main := { RegSet.zero with a := 0x12 } } (fun t =>
        t.main.f.s && !t.main.f.z && !t.main.f.h && t.main.f.pv && !t.main.f.n && !t.main.f.c && t.pc == 0x4002
          && t.tstates == 12 && t.r == 0x02) = true := by decide

/-- V49.11 (R564), `INI B=1`. -/
theorem test_v49_11_ini :
    ran .ini { boot with main := { RegSet.zero with b := 0x01, h := 0x41 } } (fun t =>
        t.main.f.z && t.main.f.n && t.main.b == 0x00 && t.main.l == 0x01 && t.pc == 0x4002 && t.readByte 0x4100
          == 0xFF && t.tstates == 16 && t.r == 0x02) = true := by decide

/-- V49.13 (R566), `IND B=1`. -/
theorem test_v49_13_ind :
    ran .ind { boot with main := { RegSet.zero with b := 0x01, h := 0x41 } } (fun t =>
        t.main.f.z && t.main.f.n && t.main.b == 0x00 && t.main.h == 0x40 && t.main.l == 0xFF && t.pc == 0x4002 &&
          t.readByte 0x4100 == 0xFF && t.tstates == 16 && t.r == 0x02) = true := by decide

/-- V49.14 (R567), `INDR B=1`. -/
theorem test_v49_14_indr :
    ran .indr { boot with main := { RegSet.zero with b := 0x01, h := 0x41 } } (fun t =>
        t.main.f.z && t.main.f.n && t.main.b == 0x00 && t.main.h == 0x40 && t.main.l == 0xFF && t.pc == 0x4002 &&
          t.readByte 0x4100 == 0xFF && t.tstates == 16 && t.r == 0x02) = true := by decide

/-- V49.15 (R568), `OUT (0xFE),A`. -/
theorem test_v49_15_outNA :
    ran (.outNA 0xFE) { boot with main := { RegSet.zero with a := 0x07 } } (fun t =>
        t.pc == 0x4002 && t.tstates == 11 && t.r == 0x01 && t.main.f == boot.main.f) = true := by decide

/-- V49.16 (R569), `OUT (C),A`. -/
theorem test_v49_16_outCR :
    ran (.outCR .a) { boot with main := { RegSet.zero with a := 0x07, b := 0xFE, c := 0xFE } } (fun t =>
        t.pc == 0x4002 && t.tstates == 12 && t.r == 0x02 && t.main.f == boot.main.f) = true := by decide

/-- V49.17 (R570), `OUT (C),0`. -/
theorem test_v49_17_outC0 :
    ran .outC0 { boot with main := { RegSet.zero with b := 0xFE, c := 0xFE } } (fun t =>
        t.pc == 0x4002 && t.tstates == 12 && t.r == 0x02 && t.main.f == boot.main.f) = true := by decide

/-- V49.18 (R571), `OUTI B=3`. -/
theorem test_v49_18_outi :
    ran .outi { boot with main := { RegSet.zero with b := 0x03, c := 0xFE, h := 0x41 } } (fun t =>
        !t.main.f.z && t.main.f.n && t.main.b == 0x02 && t.main.l == 0x01 && t.pc == 0x4002 && t.tstates == 16 &&
          t.r == 0x02) = true := by decide

/-- V49.21 (R573), `OUTD B=1, HL=0`. -/
theorem test_v49_21_outd :
    ran .outd { boot with main := { RegSet.zero with b := 0x01, c := 0xFE } } (fun t =>
        t.main.f.z && t.main.f.n && t.main.b == 0x00 && t.main.h == 0xFF && t.main.l == 0xFF && t.pc == 0x4002 &&
          t.tstates == 16 && t.r == 0x02) = true := by decide

/-! ### Instructions with no vector of one step -/

/-- `LD R,A`: R is set after the two fetch increments (R218). -/
theorem test_ldRA : ran .ldRA { boot with main := { RegSet.zero with a := 0xFF } } (fun t =>
    t.r == 0xFF && t.pc == 0x4002 && t.tstates == 9) = true := by decide

/-- `EXX` swaps B to L and leaves A and F (R282). -/
theorem test_exx :
    ran .exx
      { boot with
        main := { RegSet.zero with a := 1, b := 2, l := 3 }
        alt := { RegSet.zero with a := 4, b := 5, l := 6 } }
      (fun t => t.main.a == 1 && t.main.b == 5 && t.main.l == 6 && t.alt.a == 4 && t.alt.b == 2 && t.alt.l == 3) =
        true := by decide

/-- `LDDR`, the first of two iterations: PC stays at the 0xED byte (R285, R289). -/
theorem test_lddr_repeats :
    ran .lddr
      { boot with
        main := { RegSet.zero with b := 0, c := 2, d := 0x50, e := 1, h := 0x41, l := 1 }
        mem := [(0x4101, 0x22)] }
      (fun t => t.readByte 0x5001 == 0x22 && t.main.c == 1 && t.main.e == 0 && t.main.l == 0 && t.pc == 0x4000 &&
        t.tstates == 21 && t.main.f.pv) = true := by decide

/-- `CPIR` ends on a match with BC left over (R291). -/
theorem test_cpir_ends_on_a_match :
    ran .cpir { boot with main := { RegSet.zero with a := 0, c := 9, h := 0x41, l := 1 } } (fun t =>
      t.pc == 0x4002 && t.tstates == 16 && t.main.f.z && t.main.f.pv && t.main.c == 8) = true := by decide

/-- `INIR` and `OTIR` repeat while B is not 0 (R565, R572). -/
theorem test_inir_and_otir_repeat :
    ran .inir { boot with main := { RegSet.zero with b := 2, h := 0x41 } } (fun t =>
      t.pc == 0x4000 && t.tstates == 21 && t.main.b == 1 && t.readByte 0x4100 == 0xFF && !t.main.f.z) = true ∧
    ran .otir { boot with main := { RegSet.zero with b := 1, h := 0x41 } } (fun t =>
      t.pc == 0x4002 && t.tstates == 16 && t.main.b == 0 && t.mem == [] && t.main.f.z) = true := by decide

/-- The bytes 0xCB and 0xED as instructions run what their maps give the bytes after them (R155). -/
theorem test_prefix_bytes_select_maps :
    ran .prefixCB { boot with main := { RegSet.zero with b := 0x80 }, mem := [(0x4000, 0xCB)] } (fun t =>
      t.main.b == 1 && t.pc == 0x4002 && t.tstates == 8) = true ∧
    ran .prefixCB
      { boot with ix := 0x4100, pfx := some .ix, mem := [(0x4000, 0xCB), (0x4001, 2), (0x4002, 6), (0x4102, 0x81)] }
      (fun t => t.readByte 0x4102 == 3 && t.pc == 0x4003 && t.tstates == 19) = true ∧
    ran .prefixED { boot with main := { RegSet.zero with a := 1 }, mem := [(0x4000, 0xED), (0x4001, 0x44)] } (fun t =>
      t.main.a == 0xFF && t.pc == 0x4002 && t.tstates == 8) = true := by decide

/-- An index prefix byte: 4 T-states and one R increment (R160). -/
theorem test_index_prefix_byte :
    ran (.prefixRestart .ix .iy) { boot with pfx := some .iy } (fun t =>
      t.pfx == some .ix && t.pc == 0x4001 && t.tstates == 4 && t.r == 1) = true := by decide

/-! ### One step -/

/-- `step s` answers a next state of which `p` holds. -/
def stepped (s : State) (p : State → Bool) : Bool :=
  match step s with
  | .next t => p t
  | _ => false

/-- DD FD 21 00 50: the first step takes the prefix DD alone, and the FD after it replaces it (V42.4, R154). -/
theorem test_step_takes_one_prefix :
    stepped { boot with mem := [(0x4000, 0xDD), (0x4001, 0xFD), (0x4002, 0x21), (0x4004, 0x50)] } (fun t =>
      t.pc == 0x4001 && t.pfx == some .ix && t.tstates == 4) = true ∧
    stepped { boot with pc := 0x4002, pfx := some .iy, mem := [(0x4002, 0x21), (0x4004, 0x50)] } (fun t =>
      t.iy == 0x5000 && t.ix == 0 && t.pc == 0x4005 && t.pfx == none && t.tstates == 10) = true := by decide

/-- A tick before NOP with IFF1 set: PC 0x4001 is pushed and the core goes to 0x0038 with 17 T-states (R610). -/
theorem test_step_accepts_an_interrupt :
    stepped { boot with iff1 := true, inbox := [[.tick]] } (fun t =>
      t.pc == 0x0038 && t.sp == 0x7FFE && t.readByte 0x7FFE == 0x01 && t.readByte 0x7FFF == 0x40 && !t.iff1 &&
        t.tstates == 17 && t.request == .idle) = true := by decide

/-- A tick, then a reset request, before NOP: the reset wins (VS8.9). -/
theorem test_step_reset_replaces_an_interrupt :
    stepped { boot with iff1 := true, inbox := [[.tick, .resetRequest]] } (fun t =>
      t.pc == 0 && t.sp == 0 && t.tstates == 0 && t.mem == [] && t.request == .idle) = true := by decide

/-- The words of the table, first byte most significant. -/
theorem test_tableWord :
    decodeTableWord 8 0x00 = some .nop ∧ decodeTableWord 24 0x013412 = some (.ldPairNN .bc 0x1234) ∧
    decodeTableWord 16 0xCB01 = some (.rlcR .c) ∧ decodeTableWord 32 0xFDCB7F46 = some (.bitIndXY .iy 0x7F 0) ∧
    decodeTableWord 8 0xED = some .prefixED ∧ decodeTableWord 16 0xDDED = some (.prefixEDAfterIndex .ix) := by decide

/-- A placed word is what the first step after reset runs. -/
theorem test_withFetchWord :
    stepped (State.reset.withFetchWord 24 0x213412) (fun t => t.main.h == 0x12 && t.main.l == 0x34 && t.pc == 3) =
      true ∧
    stepped (State.reset.withFetchWord 32 0xDD360155) (fun t => t.pc == 3 && t.tstates == 15) = true ∧
    stepped (State.reset.withFetchWord 32 0xDDCB01C6) (fun t => t.pc == 3 && t.tstates == 19) = true ∧
    stepped (State.reset.withFetchWord 8 0x76) (fun t => t.halted && t.pc == 1) = true := by decide

/-! ### Witnesses: the hypotheses of each statement can be met -/

/-- Four bytes at PC for the statements about a step. -/
def at4 (b0 b1 b2 b3 : Byte) : State :=
  { boot with mem := [(0x4000, b0), (0x4001, b1), (0x4002, b2), (0x4003, b3)] }

/-- A state all of whose banks are writable. -/
def allWritable : State :=
  { State.reset with params := { Config.defaultParams with bankWritable := Vector.replicate 8 true } }

/-- A state at unthrottled speed. -/
def unthrottled : State := { boot with speed := .unthrottled }

theorem witness_EncodeThenDecode :
    (Instr.bitIndXYDup .iy 0x80 7 .a).wellFormed = true ∧ Instr.bitIndXYDup .iy 0x80 7 .a ≠ .prefixCB ∧
    Instr.bitIndXYDup .iy 0x80 7 .a ≠ .prefixED ∧ (∀ x, Instr.bitIndXYDup .iy 0x80 7 .a ≠ .prefixIndex x) ∧
    (∀ x, Instr.bitIndXYDup .iy 0x80 7 .a ≠ .prefixCBAfterIndex x) ∧ Instr.prefixCB.wellFormed = true :=
  ⟨rfl, by decide, by decide, by intro x; simp, by intro x; simp, rfl⟩

theorem witness_DecodedIsItsEncoding : decode [0xED, 0x7C, 0x00] = .ok (.negDup 7) [0x00] := by decide

theorem witness_EveryByteSequenceDecodes : 4 ≤ [(0xED : Byte), 0xFF, 0x00, 0x00].length := by decide

theorem witness_StepRunsDecoded_without_prefix :
    (at4 0x3E 0x5A 1 1).inbox = [] ∧ (at4 0x3E 0x5A 1 1).run = .running ∧ (at4 0x3E 0x5A 1 1).halted = false ∧
    (at4 0x3E 0x5A 1 1).pfx = none ∧ (at4 0x3E 0x5A 1 1).trapAt = none ∧
    decode [0x3E, 0x5A, 1, 1] = .ok (.ldRN .a 0x5A) [1, 1] ∧ ownIndex (.ldRN .a 0x5A) = none ∧
    (at4 0x3E 0x5A 1 1).readByte 0x4000 = 0x3E ∧ (at4 0x3E 0x5A 1 1).readByte 0x4001 = 0x5A ∧
    ∃ u, exec (.ldRN .a 0x5A) (at4 0x3E 0x5A 1 1) = .next u :=
  ⟨rfl, rfl, rfl, rfl, rfl, by decide, rfl, by decide, by decide, _, rfl⟩

theorem witness_StepRunsDecoded_with_prefix :
    (at4 0xDD 0x23 1 1).inbox = [] ∧ (at4 0xDD 0x23 1 1).run = .running ∧ (at4 0xDD 0x23 1 1).halted = false ∧
    (at4 0xDD 0x23 1 1).pfx = none ∧ (at4 0xDD 0x23 1 1).trapAt = none ∧
    decode [0xDD, 0x23, 1, 1] = .ok (.incXY .ix) [1, 1] ∧ ownIndex (.incXY .ix) = some .ix ∧
    (at4 0xDD 0x23 1 1).readByte 0x4000 = 0xDD ∧ (at4 0xDD 0x23 1 1).readByte 0x4001 = 0x23 ∧
    ∃ u, exec (.incXY .ix) ((at4 0xDD 0x23 1 1).takePrefix .ix) = .next u :=
  ⟨rfl, rfl, rfl, rfl, rfl, by decide, rfl, by decide, by decide, _, rfl⟩

theorem witness_StepRunsDecoded_after_prefix :
    (∀ s ∈ [{ at4 0x23 0 1 1 with pfx := some .ix }, { at4 0x48 0 1 1 with pfx := some .ix },
      { at4 0xED 0xB0 1 1 with pfx := some .ix }, { at4 0xFD 0x23 1 1 with pfx := some .ix }],
      s.inbox = [] ∧ s.run = .running ∧ s.halted = false ∧ s.pfx = some .ix) ∧
    (decode [IndexReg.ix.byte, 0x23, 0, 1, 1] = .ok (.incXY .ix) [0, 1, 1] ∧ ownIndex (.incXY .ix) = some .ix) ∧
    (isClass4 0x48 = true ∧ decode [0x48, 0, 1, 1] = .ok (.ldRR .c .b) [0, 1, 1]) ∧
    decode [0xED, 0xB0, 1, 1] = .ok .ldir [1, 1] ∧ decode [0xFD, 0x23, 1, 1] = .ok (.incXY .iy) [1, 1] ∧
    (at4 0x48 0 1 1).readByte 0x4000 = 0x48 ∧ (at4 0xED 0xB0 1 1).readByte 0x4001 = 0xB0 ∧
    (at4 0xFD 0x23 1 1).readByte 0x4000 = 0xFD ∧ (at4 0x23 0 1 1).readByte 0x4000 = 0x23 := by decide

theorem witness_LengthCountsEveryPrefix :
    decodeWithPrefixes [0xDD, 0x3E, 0x42, 0x00] = some ([.ix], .ldRN .a 0x42, [0x00]) ∧
    (0xCB : Byte) ∉ [(0xDD : Byte), 0xFD] ∧
    ((at4 0xDD 0xFD 0x23 0).inbox = [] ∧ (at4 0xDD 0xFD 0x23 0).run = .running ∧
      (at4 0xDD 0xFD 0x23 0).halted = false ∧ (at4 0xDD 0xFD 0x23 0).pfx = none ∧
      (at4 0xDD 0xFD 0x23 0).trapAt = none ∧
      decodeWithPrefixes (bytesAtPC (at4 0xDD 0xFD 0x23 0) (1 + 4)) = some ([.ix], .incXY .iy, [0, 0])) := by decide

/-- R161: `k` prefixes are counted, and the two bytes before an opcode are not an instruction of their own. -/
theorem test_instruction_lengths :
    instrLength [0xDD, 0x3E, 0x42] = some 3 ∧ instrLength [0xDD, 0xED, 0x43, 0, 0] = some 5 ∧
    instrLength [0xDD, 0xFD, 0x21, 0, 0] = some 5 ∧ instrLength [0xFD, 0x36] = some 4 ∧
    instrLength [0xDD, 0xCB] = some 4 ∧ instrLength [0xDD, 0xDD] = none ∧ instrLength [0xED] = none ∧
    decodeWithPrefixes [0xDD, 0xFD, 0x21, 0x34, 0x12] = some ([.ix], .ldXYNN .iy 0x1234, []) ∧
    decodeWithPrefixes [0xDD, 0xED, 0x43, 0x34, 0x12] = some ([.ix], .ldMemPair .bc 0x1234, []) := by decide

theorem witness_FlagWritersDraw : ∃ u, exec .scf boot = .next u ∧ u.main.f.c ≠ boot.main.f.c :=
  ⟨_, rfl, by decide⟩

theorem witness_SpecialRegisterWriters : ∃ u, exec .ei boot = .next u ∧ u.iff1 ≠ boot.iff1 := ⟨_, rfl, by decide⟩

theorem witness_StoreWritesItsAliases :
    boot.writable 0x1FFF = false ∧ boot.writable 0xFFFF = true ∧ State.reset.writable 0x2000 = true ∧ allWritable.writable 0x2000 = true ∧ (0 : Word).toNat < 0x400 ∧
    (0x3FF : Word).toNat < 0x400 ∧ (0x1FFF : Word).toNat < 0x2000 ∧ allWritable.writable 0x1FFF = true ∧
    0x4000 ≤ (0x4000 : Word).toNat ∧ State.reset.writable 0x4000 = true := by decide

theorem witness_WordsAreLittleEndian :
    (allWritable.writable 0xFFFF = true ∧ allWritable.writable (0xFFFF + 1) = true) ∧
    (allWritable.writable 0x1FFF = true ∧ allWritable.writable (0x1FFF + 1) = true) ∧
    (State.reset.writable 0x1FFF = false ∧ State.reset.writable 0x2000 = true) := by decide

theorem witness_ReadOnlyBanksNeverChange :
    (∃ u, step boot = .next u) ∧ boot.writable 0x0000 = false ∧ boot.writable 0x1FFF = false :=
  ⟨⟨_, rfl⟩, by decide, by decide⟩

theorem witness_StepKeepsInvariant : boot.Inv ∧ ∃ u, step boot = .next u :=
  ⟨⟨⟨List.Pairwise.nil, by simp [boot, State.reset]⟩, fun _ _ _ => rfl, by decide, by decide⟩, _, rfl⟩

theorem witness_ParametersAreFixed : ∃ u, step State.reset = .next u := ⟨_, rfl⟩

theorem witness_BlockTransfers :
    ({ boot with main := { RegSet.zero with c := 1 } } : State).pair .bc = 1 ∧ boot.pair .bc ≠ 1 := by decide

theorem witness_BlockSearches :
    (boot.main.a = boot.readByte (boot.pair .hl) ∧
      ({ boot with main := { RegSet.zero with c := 1 } } : State).pair .bc = 1) ∧
    ({ boot with main := { RegSet.zero with a := 1, b := 1 } } : State).pair .bc ≠ 1 ∧
    ({ boot with main := { RegSet.zero with a := 1, b := 1 } } : State).main.a ≠
      ({ boot with main := { RegSet.zero with a := 1, b := 1 } } : State).readByte 0 := by decide

theorem witness_BlockInputAndOutput :
    ({ boot with main := { RegSet.zero with b := 1 } } : State).main.b = 1 ∧ boot.main.b ≠ 1 := by decide

theorem witness_DecimalAddition :
    99 < 100 ∧ ({ boot with main := { RegSet.zero with a := 0x99 } } : State).main.a = bcd 99 ∧
    boot.main.a = bcd 0 := by decide

theorem witness_CallsAndReturns_and_JumpInstructions_conditions :
    boot.main.f.holds .nz = true ∧ boot.main.f.holds .c = false ∧ boot.main.f.holds .m = false ∧
    boot.main.f.holds .po = true := by decide

theorem witness_JumpInstructions_djnz :
    ({ boot with main := { RegSet.zero with b := 1 } } : State).main.b = 1 ∧ boot.main.b ≠ 1 := by decide

theorem witness_InterruptReturns : Instr.retnDup 7 ∈ [Instr.reti, .retn, .retnDup 7] := by decide

theorem witness_IndexPrefixBytes :
    Instr.ignoredIndexPrefix .iy 0xEB ∈ [Instr.prefixIndex .iy, .prefixCBAfterIndex .iy, .prefixEDAfterIndex .iy,
      .prefixRestart .iy .ix, .ignoredIndexPrefix .iy 0xEB] := by decide

theorem witness_AccumulatorRotates :
    (Instr.rra, RotOp.rr) ∈ [(Instr.rlca, RotOp.rlc), (.rla, .rl), (.rrca, .rrc), (.rra, .rr)] := by decide

theorem witness_RotatesAndShifts : rotates.length = 8 ∧ ∃ p ∈ rotates, p.1 = .sll := ⟨rfl, rotates[6], List.getElem_mem _, rfl⟩

theorem witness_BitSetAndReset : bitWrites.length = 2 ∧ ∃ p ∈ bitWrites, p.1 = false :=
  ⟨rfl, bitWrites[1], List.getElem_mem _, rfl⟩

theorem witness_PortReads : (0xFF : Byte) ≠ 0xFE ∧ (0xFC : Byte) ∉ keyMask ∧ (0x00 : Byte) ∉ keyMask := by decide

theorem witness_MapSelectingBytes :
    boot.pfx = none ∧ ({ boot with pfx := some .iy } : State).pfx = some .iy := ⟨rfl, rfl⟩

theorem witness_OwnPrefixTakenOnce :
    ownIndex (.incXY .ix) = some .ix ∧ boot.pfx ≠ some .ix ∧ ({ boot with pfx := some .iy } : State).pfx ≠ some .ix := by
  decide

theorem witness_InterruptSampling :
    (boot.pfx = none ∧ ({ boot with request := .pendingInterrupt, iff1 := true } : State).iff1 = true) ∧
    (boot.request = .idle ∧ ({ boot with request := .pendingInterrupt } : State).iff1 = false) ∧
    ({ boot with pfx := some .ix } : State).pfx ≠ none := by decide

theorem witness_ResetAtBoundary :
    ({ boot with request := .pendingReset, iff1 := true } : State).pfx = none ∧
    ({ boot with request := .pendingReset, iff1 := true } : State).request = .pendingReset := ⟨rfl, rfl⟩

theorem witness_HostActions :
    ({ boot with inbox := [[.tick, .resetRequest]] } : State).inbox = (.tick :: [.resetRequest]) :: [] ∧
    ({ boot with run := .suspended } : State).run = .suspended ∧ boot.run ≠ .suspended ∧
    ({ boot with run := .suspended, inbox := [[.resetRequest]] } : State).run = .suspended ∧
    ({ boot with run := .suspended, inbox := [[.resetRequest]] } : State).inbox = [.resetRequest] :: [] ∧
    HostEvent.resetRequest ≠ .tick ∧ HostEvent.setSpeed .normal ≠ .tick := by decide

theorem witness_HostActions_in_a_trap_wait :
    (∃ k, ({ boot with run := .trapWait .save, inbox := [[.tick]] } : State).run = .trapWait k) ∧
    (∀ x, HostEvent.tick ≠ .tapeReturn x) ∧
    ({ boot with run := .trapWait .save, inbox := [[.tick]] } : State).inbox = [.tick] :: [] :=
  ⟨⟨_, rfl⟩, fun _ h => HostEvent.noConfusion h, rfl⟩

theorem witness_ThrottleSuspends :
    boot.pfx = none ∧ ({ boot with run := .suspended } : State).inbox = [] ∧
    ({ boot with run := .suspended } : State).run = .suspended := ⟨rfl, rfl, rfl⟩

/-- One above the budget suspends, and the budget itself does not. -/
theorem test_throttle_at_its_bound :
    ({ boot with tstates := 8, params := { Config.defaultParams with tstatesPerTick := 7 } } : State).finish.run =
      .suspended ∧
    ({ boot with tstates := 7, params := { Config.defaultParams with tstatesPerTick := 7 } } : State).finish.run =
      .running := by decide

theorem witness_HaltAndIdleCycles :
    ({ unthrottled with halted := true } : State).inbox = [] ∧ ({ unthrottled with halted := true } : State).run = .running ∧
    ({ unthrottled with halted := true } : State).halted = true ∧
    ({ unthrottled with halted := true } : State).speed = .unthrottled ∧
    ({ unthrottled with halted := true } : State).request = .idle := ⟨rfl, rfl, rfl, rfl, rfl⟩

theorem witness_HaltAndIdleCycles_requests :
    ∀ s ∈ [({ unthrottled with halted := true, request := .pendingInterrupt, iff1 := false } : State),
      { unthrottled with halted := true, request := .pendingInterrupt, iff1 := true },
      { unthrottled with halted := true, request := .pendingReset }],
      s.inbox = [] ∧ s.run = .running ∧ s.halted = true ∧ s.speed = .unthrottled ∧
        (s.request = .pendingReset ∨ s.request = .pendingInterrupt) := by decide

theorem witness_TapeTraps_calls :
    ({ boot with pc := 0x1FFE } : State).params.trapEnabled = true ∧
    ({ boot with pc := 0x1FFE } : State).pc = Config.defaultParams.trapLoad ∧
    ({ boot with pc := 0x1FFF } : State).pc = Config.defaultParams.trapSave ∧
    Config.defaultParams.trapSave ≠ Config.defaultParams.trapLoad ∧ boot.inbox = [] ∧ boot.run = .running ∧
    boot.halted = false ∧ boot.pfx = none ∧
    ({ boot with params := { Config.defaultParams with trapEnabled := false } } : State).params.trapEnabled = false := by
  decide

theorem witness_TapeTraps_routine : ({ boot with run := .trapWait .load } : State).run = .trapWait .load := rfl

/-- The aliases of a stored address, a store to ROM, and the last of two stores to one alias class (R107, R113). -/
theorem test_routine_stores_at_every_address :
    boot.byteAfter [(0x2000, 1), (0x1000, 2), (0x2400, 3)] 0x2000 = 3 ∧
    boot.byteAfter [(0x3C01, 4), (0x1000, 2)] 0x3001 = 4 ∧
    boot.byteAfter [(0x3C01, 4), (0x1000, 2)] 0x1000 = boot.readByte 0x1000 := by decide

theorem witness_NothingDependsOnTheCycleCounter :
    (∃ u, exec .nop boot = .next u) ∧ unthrottled.inbox = [] ∧ unthrottled.speed = .unthrottled ∧
    ∃ u, step unthrottled = .next u := ⟨⟨_, rfl⟩, rfl, rfl, _, rfl⟩

end Sys2Proof.Tests
end

section
/-! PROOFS. The family of 00_scope.md: every instruction and every step answers a next state (R25, R600), and none of
them changes a parameter (R17, R101). Both follow from one predicate of an outcome, which every operation of the machine
is shown to meet. -/

namespace Sys2Proof.Machine

/-- The outcome is a next state, with the parameters of `s`. -/
def KeepsParams (s : State) (o : Out) : Prop := ∃ u, o = .next u ∧ u.params = s.params

theorem KeepsParams.of_next {s u : State} (h : u.params = s.params) : KeepsParams s (.next u) := ⟨u, rfl, h⟩

/-- The effect of a conditional instruction: the taken and the untaken branch are both to be shown. -/
theorem KeepsParams.of_ite {s t u : State} {c : Prop} [Decidable c] (ht : t.params = s.params)
    (hu : u.params = s.params) : KeepsParams s (.next (if c then t else u)) := by
  split
  · exact .of_next ht
  · exact .of_next hu

/-! ### Instructions -/

@[simp] theorem State.loadSpecial_params (s : State) (v : Byte) : (s.loadSpecial v).params = s.params := rfl

theorem cbTable_keepsParams (op2 : Byte) (s : State) : KeepsParams s (cbTable op2 s) := by
  unfold cbTable
  split <;> exact .of_next (by simp)

theorem xycbTable_keepsParams (x : IndexReg) (d op2 : Byte) (s : State) : KeepsParams s (xycbTable x d op2 s) := by
  unfold xycbTable
  split <;> exact .of_next (by simp)

theorem edTable1_keepsParams (op2 : Byte) (nn : Word) (s : State) : KeepsParams s (edTable1 op2 nn s) := by
  unfold edTable1
  dsimp only
  split
  -- IN, OUT
  · cases Reg8.ofCode (fieldY op2) <;> exact .of_next (by simp)
  · cases Reg8.ofCode (fieldY op2) <;> exact .of_next (by simp)
  -- 16-bit arithmetic and loads
  · split <;> exact .of_next (by simp)
  · split <;> exact .of_next (by simp)
  -- NEG, the returns, IM
  · exact .of_next (by simp)
  · split <;> exact .of_next (by simp)
  · exact .of_next (by simp)
  -- I, R, the digit rotates and holes
  · split <;> exact .of_next (by simp)

theorem edTable2_keepsParams (op2 : Byte) (s : State) : KeepsParams s (edTable2 op2 s) := by
  unfold edTable2
  split <;> exact .of_next (by simp)

theorem edTable_keepsParams (op2 : Byte) (nn : Word) (s : State) : KeepsParams s (edTable op2 nn s) := by
  unfold edTable
  split
  · exact edTable1_keepsParams ..
  · exact edTable2_keepsParams ..
  · exact .of_next (by simp)

theorem execPrefixCB_keepsParams (s : State) : KeepsParams s (execPrefixCB s) := by
  unfold execPrefixCB
  split
  · exact cbTable_keepsParams ..
  · exact xycbTable_keepsParams ..

/-- Every instruction answers a next state and keeps the parameters. Beside the bytes that select a map and the
conditional instructions, its effect is a row of updates of the state, none of which touches a parameter: the `_params`
lemmas of Laws/State.lean say so for each. -/
theorem exec_keepsParams (i : Instr) (s : State) : KeepsParams s (exec i s) := by
  cases i
  case prefixCB => exact execPrefixCB_keepsParams s
  case prefixED => exact edTable_keepsParams ..
  case jpCond | jrCond | djnz | callCond | retCond => exact .of_ite (by simp) (by simp)
  all_goals exact .of_next (by simp)

/-! ### Host actions -/

@[simp] theorem State.tick_params (s : State) : s.tick.params = s.params := by
  unfold State.tick
  dsimp only
  repeat' split
  all_goals rfl

/-- A row of byte stores keeps the parameters. -/
theorem State.stores_params (ps : List (Word × Byte)) (s : State) :
    (ps.foldl (fun t p => t.writeByte p.1 p.2) s).params = s.params :=
  (congrArg State.params (State.stores_frame ps s) :)

@[simp] theorem State.tapeReturn_params (s : State) (x : TapeResult) : (s.tapeReturn x).params = s.params := by
  unfold State.tapeReturn
  split
  · exact State.stores_params x.stores s
  · rfl

@[simp] theorem State.hostAction_params (s : State) (e : HostEvent) : (s.hostAction e).params = s.params := by
  cases e with
  | tick => exact s.tick_params
  | resetRequest => rfl
  | setSpeed v => rfl
  | tapeReturn x => exact s.tapeReturn_params x

theorem State.hostActions_params (es : List HostEvent) (s : State) :
    (es.foldl State.hostAction s).params = s.params := by
  induction es generalizing s with
  | nil => rfl
  | cons e es ih => rw [List.foldl_cons, ih, State.hostAction_params]

@[simp] theorem State.takeInbox_params (s : State) : s.takeInbox.params = s.params := by
  unfold State.takeInbox
  split
  · rfl
  · exact State.hostActions_params ..

/-! ### Boundary actions and the step -/

@[simp] theorem State.sampleRequest_params (s : State) : s.sampleRequest.params = s.params := by
  unfold State.sampleRequest
  split
  · rfl
  · split
    · exact State.acceptInterrupt_params _
    · rfl
  · rfl

@[simp] theorem State.boundary_params (s : State) : s.boundary.params = s.params := by
  obtain ⟨r, hb, -⟩ := s.boundary_cases
  rw [hb]
  exact s.sampleRequest_params

@[simp] theorem State.idleCycle_params (s : State) : s.idleCycle.params = s.params := State.boundary_params _

@[simp] theorem State.finish_params (s : State) : s.finish.params = s.params := by
  unfold State.finish
  split
  · rfl
  · exact s.boundary_params

/-- Every step answers a next state and keeps the parameters, whichever activity the core is in. -/
theorem step_keepsParams (s : State) : KeepsParams s (step s) := by
  unfold step
  dsimp only
  cases s.takeInbox.activity with
  | wait => exact .of_next s.takeInbox_params
  | idle => exact .of_next (by simp)
  | trap k => exact .of_next (by simp)
  | execute =>
    obtain ⟨u, hu, hp⟩ := exec_keepsParams s.takeInbox.nextInstr s.takeInbox
    rw [hu]
    exact .of_next (by simp [hp])

end Sys2Proof.Machine

namespace Sys2Proof.Proofs

open Sys2Proof.Machine

/-- Settles O15: the parameters are kept by every step, and the write attributes are read off them. -/
theorem parametersAreFixed : Obligations.ParametersAreFixed := by
  intro s u hu
  obtain ⟨v, hv, hp⟩ := step_keepsParams s
  obtain rfl : u = v := Host.Outcome.next.inj (hu.symm.trans hv)
  exact ⟨hp, State.writable_congr hp⟩

/-- Settles O16: that a step or an instruction keeps the parameters says in the first place that it answers next. -/
theorem everyStepAnswersNext : Obligations.EveryStepAnswersNext := by
  constructor
  · intro s
    obtain ⟨u, hu, -⟩ := step_keepsParams s
    exact ⟨u, hu⟩
  · intro i s
    obtain ⟨u, hu, -⟩ := exec_keepsParams i s
    exact ⟨u, hu⟩

end Sys2Proof.Proofs
end

section
/-! PROOFS. The family of 10_state.md: the pairs and the bytes of a word (R42, R44), the bits of F, the conditions and
the parity (R62, R65, R66), and, over all instructions, which of them write F without a draw (R64) and which write a
special register (R41, R48, R53, R54, R71). -/

namespace Sys2Proof.Machine

/-! ### Words and their two bytes -/

theorem join_toNat (hi lo : Byte) : (join hi lo).toNat = 256 * hi.toNat + lo.toNat := by
  have hlo : lo.toNat < 2 ^ 8 := lo.isLt
  rw [join, BitVec.toNat_append, ← Nat.shiftLeft_add_eq_or_of_lt hlo, Nat.shiftLeft_eq]
  omega

theorem toNat_eq_bytes (v : Word) : v.toNat = 256 * (hiByte v).toNat + (loByte v).toNat := by
  rw [← join_toNat, join_hi_lo]

theorem State.setPair_onlyPair (s : State) (p : Pair) (v : Word) : Spec.OnlyPair s (s.setPair p v) p := by
  refine ⟨fun q hq => ?_, ?_, ?_, ?_⟩
  · cases p <;> cases q <;> trivial
  all_goals cases p <;> rfl

/-! ### The bits of F and the parity -/

theorem Flags.toByte_toNat (f : Flags) : f.toByte.toNat = 128 * f.s.toNat + 64 * f.z.toNat + 32 * f.y.toNat +
    16 * f.h.toNat + 8 * f.x.toNat + 4 * f.pv.toNat + 2 * f.n.toNat + f.c.toNat := by
  obtain ⟨s, z, y, h, x, pv, n, c⟩ := f
  revert s z y h x pv n c
  decide

/-- The eight bits xored together are 0 exactly for an even number of ones: checked on each of the 256 bytes (R65). -/
theorem parity_iff_ones_even (v : Byte) : parity v = true ↔ Spec.ones v % 2 = 0 := by
  revert v
  decide

/-! ### The bytes that select a map

0xCB or 0xED as an instruction does what the instruction it selects does, whose encoding has more than that one byte. -/

theorem cbTable_eq_exec (op2 : Byte) (s : State) : cbTable op2 s = exec (decodeCB op2) s := by
  unfold cbTable decodeCB
  dsimp only
  generalize (fieldX op2).toNat = x
  rcases x with _ | _ | _ | x <;> cases Reg8.ofCode (fieldZ op2)
  case zero.none | zero.some => cases RotOp.ofCode (fieldY op2) <;> rfl
  all_goals rfl

theorem xycbTable_eq_exec (x : IndexReg) (d op2 : Byte) (s : State) :
    xycbTable x d op2 s = exec (decodeXYCB x d op2) s := by
  unfold xycbTable decodeXYCB
  dsimp only
  generalize (fieldX op2).toNat = k
  rcases k with _ | _ | _ | k <;> cases Reg8.ofCode (fieldZ op2)
  case zero.none | zero.some => cases RotOp.ofCode (fieldY op2) <;> rfl
  all_goals rfl

theorem edTable1_eq_exec (op2 lo hi : Byte) (s : State) :
    edTable1 op2 (join hi lo) s = exec (decodeED1 op2 lo hi) s := by
  unfold edTable1 decodeED1
  dsimp only
  generalize fieldY op2 = y
  generalize (fieldZ op2).toNat = z
  rcases z with _ | _ | _ | _ | z
  -- IN, OUT
  · cases Reg8.ofCode y <;> rfl
  · cases Reg8.ofCode y <;> rfl
  -- 16-bit arithmetic and loads
  · cases fieldQ op2 <;> rfl
  · cases fieldQ op2 <;> rfl
  -- NEG, the returns and IM, each with its duplicates; I, R, the digit rotates and holes
  · obtain ⟨⟨y, hy⟩⟩ := y
    rcases z with _ | _ | _ | z <;> interval_cases y <;> rfl

theorem edTable2_eq_exec (op2 : Byte) (s : State) : edTable2 op2 s = exec (decodeED2 op2) s := by
  unfold edTable2 decodeED2
  generalize fieldY op2 = y
  generalize fieldZ op2 = z
  obtain ⟨⟨y, hy⟩⟩ := y
  obtain ⟨⟨z, hz⟩⟩ := z
  interval_cases y <;> interval_cases z <;> rfl

theorem edTable_eq_exec (op2 lo hi : Byte) (s : State) :
    edTable op2 (join hi lo) s = exec (decodeED op2 lo hi) s := by
  unfold edTable decodeED
  generalize (fieldX op2).toNat = x
  rcases x with _ | _ | _ | x
  · rfl
  · exact edTable1_eq_exec ..
  · exact edTable2_eq_exec ..
  · rfl

theorem encode_decodeCB (op2 : Byte) : ∃ b, encode (decodeCB op2) = [0xCB, b] := by
  unfold decodeCB
  dsimp only
  split <;> cases Reg8.ofCode (fieldZ op2)
  case h_1.none | h_1.some => cases RotOp.ofCode (fieldY op2) <;> exact ⟨_, rfl⟩
  all_goals exact ⟨_, rfl⟩

theorem encode_decodeXYCB (x : IndexReg) (d op2 : Byte) : ∃ b, encode (decodeXYCB x d op2) = [x.byte, 0xCB, d, b] := by
  unfold decodeXYCB
  dsimp only
  split <;> cases Reg8.ofCode (fieldZ op2)
  case h_1.none | h_1.some => cases RotOp.ofCode (fieldY op2) <;> exact ⟨_, rfl⟩
  all_goals exact ⟨_, rfl⟩

theorem encode_decodeED1 (op2 lo hi : Byte) : ∃ b bs, encode (decodeED1 op2 lo hi) = 0xED :: b :: bs := by
  unfold decodeED1
  dsimp only
  split
  · cases Reg8.ofCode (fieldY op2) <;> exact ⟨_, _, rfl⟩
  · cases Reg8.ofCode (fieldY op2) <;> exact ⟨_, _, rfl⟩
  all_goals
    repeat' split
    all_goals exact ⟨_, _, rfl⟩

theorem encode_decodeED (op2 lo hi : Byte) : ∃ b bs, encode (decodeED op2 lo hi) = 0xED :: b :: bs := by
  unfold decodeED
  split
  · exact encode_decodeED1 ..
  · unfold decodeED2
    split <;> exact ⟨_, _, rfl⟩
  · exact ⟨_, _, rfl⟩

/-- The byte 0xCB runs an instruction of several bytes that is not one of the ED map (R155). -/
theorem exec_prefixCB_eq (s : State) :
    ∃ j, exec .prefixCB s = exec j s ∧ 2 ≤ (encode j).length ∧ (encode j).head? ≠ some 0xED := by
  rw [show exec .prefixCB s = execPrefixCB s from rfl, execPrefixCB]
  split
  · obtain ⟨b, hb⟩ := encode_decodeCB (s.readByte (s.pc + 1))
    exact ⟨_, cbTable_eq_exec .., by rw [hb]; simp, by rw [hb]; simp⟩
  · rename_i x _
    obtain ⟨b, hb⟩ := encode_decodeXYCB x (s.readByte (s.pc + 1)) (s.readByte (s.pc + 2))
    exact ⟨_, xycbTable_eq_exec .., by rw [hb]; simp, by rw [hb]; cases x <;> simp [IndexReg.byte]⟩

/-- The byte 0xED runs an instruction of several bytes (R155). -/
theorem exec_prefixED_eq (s : State) : ∃ j, exec .prefixED s = exec j s ∧ 2 ≤ (encode j).length := by
  obtain ⟨b, bs, hb⟩ := encode_decodeED (s.readByte (s.pc + 1)) (s.readByte (s.pc + 2)) (s.readByte (s.pc + 3))
  exact ⟨_, edTable_eq_exec .., by rw [hb]; simp⟩

theorem ne_of_encode_length {i j : Instr} (hi : 2 ≤ (encode i).length) (hj : (encode j).length = 1) : i ≠ j := by
  rintro rfl
  omega

/-! ### Outcomes -/

/-- The outcome is a next state, and `P` holds of it. -/
def Answers (P : State → Prop) (o : Out) : Prop := ∃ u, o = .next u ∧ P u

theorem Answers.of_next {P : State → Prop} {u : State} (h : P u) : Answers P (.next u) := ⟨u, rfl, h⟩

/-- The effect of a conditional instruction: the taken and the untaken branch are both to be shown. -/
theorem Answers.of_ite {P : State → Prop} {t u : State} {c : Prop} [Decidable c] (ht : P t) (hu : P u) :
    Answers P (.next (if c then t else u)) := by
  split
  · exact .of_next ht
  · exact .of_next hu

theorem Answers.imp {P Q : State → Prop} {o : Out} (h : Answers P o) (hPQ : ∀ u, P u → Q u) : Answers Q o := by
  obtain ⟨u, hu, hP⟩ := h
  exact ⟨u, hu, hPQ u hP⟩

theorem Answers.of_eq_next {P : State → Prop} {o : Out} {u : State} (h : Answers P o) (ho : o = .next u) : P u := by
  obtain ⟨v, hv, hP⟩ := h
  obtain rfl : u = v := Host.Outcome.next.inj (ho.symm.trans hv)
  exact hP

/-- What every instruction's outcome answers is shown for all but the two bytes that select a map, and carried to these
from the instructions they run. -/
theorem exec_answers {P : Instr → State → Prop} {s : State}
    (h : ∀ i, i ≠ .prefixCB → i ≠ .prefixED → Answers (P i) (exec i s))
    (hcb : ∀ j u, 2 ≤ (encode j).length → (encode j).head? ≠ some 0xED → P j u → P .prefixCB u)
    (hed : ∀ j u, 2 ≤ (encode j).length → P j u → P .prefixED u) (i : Instr) : Answers (P i) (exec i s) := by
  have hrun (j : Instr) (hlen : 2 ≤ (encode j).length) : Answers (P j) (exec j s) :=
    h j (ne_of_encode_length hlen rfl) (ne_of_encode_length hlen rfl)
  by_cases hi : i = .prefixCB
  · obtain ⟨j, hj, hlen, hhead⟩ := exec_prefixCB_eq s
    rw [hi, hj]
    exact (hrun j hlen).imp fun u => hcb j u hlen hhead
  by_cases hi' : i = .prefixED
  · obtain ⟨j, hj, hlen⟩ := exec_prefixED_eq s
    rw [hi', hj]
    exact (hrun j hlen).imp fun u => hed j u hlen
  exact h i hi hi'

/-! ### What is left in F[5] and F[3] -/

/-- Bits 5 and 3 of F are those of the drawn byte `free` (R64). -/
def FreeXY (f : Flags) (free : Byte) : Prop := f.y = free.getLsbD 5 ∧ f.x = free.getLsbD 3

@[simp] theorem alu8_freeXY (op : AluOp) (a v : Byte) (c : Bool) (free : Byte) :
    FreeXY (alu8 op a v c free).2 free := by cases op <;> exact ⟨rfl, rfl⟩
@[simp] theorem sub8_freeXY (a b : Byte) (c : Bool) (free : Byte) : FreeXY (sub8 a b c free).2 free := ⟨rfl, rfl⟩
@[simp] theorem incFlags_freeXY (f : Flags) (v free : Byte) : FreeXY (incFlags f v free) free := ⟨rfl, rfl⟩
@[simp] theorem decFlags_freeXY (f : Flags) (v free : Byte) : FreeXY (decFlags f v free) free := ⟨rfl, rfl⟩
@[simp] theorem daa8_freeXY (a : Byte) (f : Flags) (free : Byte) : FreeXY (daa8 a f free).2 free := ⟨rfl, rfl⟩
@[simp] theorem add16_freeXY (a b : Word) (f : Flags) (free : Byte) : FreeXY (add16 a b f free).2 free := ⟨rfl, rfl⟩
@[simp] theorem adc16_freeXY (a b : Word) (c : Bool) (free : Byte) : FreeXY (adc16 a b c free).2 free := ⟨rfl, rfl⟩
@[simp] theorem sbc16_freeXY (a b : Word) (c : Bool) (free : Byte) : FreeXY (sbc16 a b c free).2 free := ⟨rfl, rfl⟩
@[simp] theorem rotFlags_freeXY (f : Flags) (v : Byte) (c : Bool) (free : Byte) :
    FreeXY (rotFlags f v c free) free := ⟨rfl, rfl⟩
@[simp] theorem rotAFlags_freeXY (f : Flags) (c : Bool) (free : Byte) : FreeXY (rotAFlags f c free) free := ⟨rfl, rfl⟩
@[simp] theorem inFlags_freeXY (f : Flags) (v free : Byte) : FreeXY (inFlags f v free) free := ⟨rfl, rfl⟩
@[simp] theorem bitFlags_freeXY (f : Flags) (b : BitVec 3) (v free : Byte) :
    FreeXY (bitFlags f b v free) free := ⟨rfl, rfl⟩
@[simp] theorem moveFlags_freeXY (f : Flags) (bc : Word) (free : Byte) : FreeXY (moveFlags f bc free) free := ⟨rfl, rfl⟩
@[simp] theorem searchFlags_freeXY (f : Flags) (a v : Byte) (bc : Word) (free : Byte) :
    FreeXY (searchFlags f a v bc free) free := ⟨rfl, rfl⟩
@[simp] theorem blockIoFlags_freeXY (b free : Byte) : FreeXY (blockIoFlags b free) free := ⟨rfl, rfl⟩

/-! ### F after each effect -/

@[simp] theorem State.aluA_f (s : State) (op : AluOp) (v : Byte) :
    (s.aluA op v).main.f = (alu8 op s.main.a v s.main.f.c s.freeByte).2 := rfl
@[simp] theorem State.incFlagged_f (s : State) (v : Byte) :
    (s.incFlagged v).main.f = incFlags s.main.f v s.freeByte := rfl
@[simp] theorem State.decFlagged_f (s : State) (v : Byte) :
    (s.decFlagged v).main.f = decFlags s.main.f v s.freeByte := rfl
@[simp] theorem State.rotFlagged_f (s : State) (op : RotOp) (v : Byte) : (s.rotFlagged op v).main.f =
    rotFlags s.main.f (rotate8 op v s.main.f.c).1 (rotate8 op v s.main.f.c).2 s.freeByte := rfl
@[simp] theorem State.bitFlagged_f (s : State) (b : BitVec 3) (v : Byte) :
    (s.bitFlagged b v).main.f = bitFlags s.main.f b v s.freeByte := rfl
@[simp] theorem State.inFlagged_f (s : State) (v : Byte) :
    (s.inFlagged v).main.f = inFlags s.main.f v s.freeByte := rfl
@[simp] theorem State.negated_f (s : State) : s.negated.main.f = (sub8 0 s.main.a false s.freeByte).2 := rfl
@[simp] theorem State.blockMove_f (back : Bool) (s : State) :
    (s.blockMove back).main.f = moveFlags s.main.f (s.main.bc - 1) s.freeByte := rfl
@[simp] theorem State.blockSearch_f (back : Bool) (s : State) : (s.blockSearch back).main.f =
    searchFlags s.main.f s.main.a (s.readByte s.main.hl) (s.main.bc - 1) s.freeByte := rfl
@[simp] theorem State.blockIn_f (back : Bool) (s : State) :
    (s.blockIn back).main.f = blockIoFlags (s.main.b - 1) s.freeByte := rfl
@[simp] theorem State.blockOut_f (back : Bool) (s : State) :
    (s.blockOut back).main.f = blockIoFlags (s.main.b - 1) s.freeByte := rfl
@[simp] theorem State.setPair_f (s : State) (p : Pair) (v : Word) : (s.setPair p v).main.f = s.main.f := by
  cases p <;> rfl

/-! ### The writers of F -/

/-- What `i` may do to F from `s` to `u`, as R64 has it. -/
def FlagsWrittenBy (i : Instr) (s u : State) : Prop :=
  u.main.f = s.main.f ∨ i = .popPair .af ∨ i = .exAFAF ∨ (u.draws = s.draws + 1 ∧ FreeXY u.main.f s.freeByte)

/-- Only one-byte instructions move F whole, so what one of several bytes does to F, every instruction may do. -/
theorem FlagsWrittenBy.of_multibyte {i j : Instr} {s u : State} (h : FlagsWrittenBy j s u)
    (hj : 2 ≤ (encode j).length) : FlagsWrittenBy i s u := by
  have hpop : j ≠ .popPair .af := ne_of_encode_length hj rfl
  have hex : j ≠ .exAFAF := ne_of_encode_length hj rfl
  obtain h | h | h | h := h
  · exact .inl h
  · exact absurd h hpop
  · exact absurd h hex
  · exact .inr (.inr (.inr h))

/-- The two bytes that select a map apart, an instruction's effect on F is none, one of the effects above, or that of
POP AF or EX AF,AF'. -/
theorem exec_flags_of_ne (i : Instr) (s : State) (hcb : i ≠ .prefixCB) (hed : i ≠ .prefixED) :
    Answers (FlagsWrittenBy i s) (exec i s) := by
  cases i
  case prefixCB => exact absurd rfl hcb
  case prefixED => exact absurd rfl hed
  case exAFAF => exact .of_next (.inr (.inr (.inl rfl)))
  case popPair q =>
    cases q
    case af => exact .of_next (.inr (.inl rfl))
    all_goals exact .of_next (.inl rfl)
  case ldAI | ldAR | cpl | ccf | scf => exact .of_next (.inr (.inr (.inr ⟨rfl, rfl, rfl⟩)))
  case djnz => exact .of_ite (.inl rfl) (.inl rfl)
  case jpCond | jrCond | callCond | retCond => exact .of_ite (.inl (by simp)) (.inl (by simp))
  all_goals exact .of_next (by simp [FlagsWrittenBy, RegSet.set_f])

theorem exec_flags (i : Instr) (s : State) : Answers (FlagsWrittenBy i s) (exec i s) :=
  exec_answers (P := fun i => FlagsWrittenBy i s) (fun i => exec_flags_of_ne i s)
    (fun _ _ hlen _ h => h.of_multibyte hlen) (fun _ _ hlen h => h.of_multibyte hlen) i

/-! ### The writers of the special registers -/

/-- What `i` may do to the special registers from `s` to `u` (R41, R48, R53, R54, R71, R77). -/
def SpecialsWrittenBy (i : Instr) (s u : State) : Prop :=
  (u.alt = s.alt ∨ i = .exAFAF ∨ i = .exx) ∧
  (u.i = s.i ∨ i = .ldIA ∨ i = .prefixED) ∧
  (u.iff1 = s.iff1 ∨ i = .di ∨ i = .ei ∨ i = .reti ∨ i = .retn ∨ (∃ y, i = .retnDup y) ∨ i = .prefixED) ∧
  (u.iff2 = s.iff2 ∨ i = .di ∨ i = .ei) ∧
  (u.im = s.im ∨ i = .im0 ∨ (∃ y, i = .im0Dup y) ∨ i = .im1 ∨ i = .im1Dup ∨ i = .im2 ∨ i = .im2Dup ∨
    i = .prefixED) ∧
  (u.halted = s.halted ∨ i = .halt) ∧
  u.request = s.request ∧ u.speed = s.speed ∧ u.run = s.run ∧ u.params = s.params ∧ u.inbox = s.inbox

/-- The two bytes that select a map apart: every effect keeps the special registers, field by field, but for the few
instructions that set one by name. -/
theorem exec_specials_of_ne (i : Instr) (s : State) (hcb : i ≠ .prefixCB) (hed : i ≠ .prefixED) :
    Answers (SpecialsWrittenBy i s) (exec i s) := by
  cases i
  case prefixCB => exact absurd rfl hcb
  case prefixED => exact absurd rfl hed
  case jpCond | jrCond | djnz | callCond | retCond =>
    exact .of_ite (by simp [SpecialsWrittenBy]) (by simp [SpecialsWrittenBy])
  case ldAI | ldAR => exact .of_next (by simp [SpecialsWrittenBy, State.loadSpecial])
  all_goals exact .of_next (by simp [SpecialsWrittenBy])

/-- No instruction of several bytes writes the shadow set, IFF2 or `halted`. -/
theorem SpecialsWrittenBy.prefixED {j : Instr} {s u : State} (h : SpecialsWrittenBy j s u)
    (hj : 2 ≤ (encode j).length) : SpecialsWrittenBy .prefixED s u := by
  have hne (k : Instr) (hk : (encode k).length = 1) : j ≠ k := ne_of_encode_length hj hk
  obtain ⟨halt, -, -, hiff2, -, hhalted, hhost⟩ := h
  refine ⟨.inl (halt.resolve_right ?_), by simp, by simp, .inl (hiff2.resolve_right ?_), by simp,
    .inl (hhalted.resolve_right ?_), hhost⟩
  · exact not_or.2 ⟨hne _ rfl, hne _ rfl⟩
  · exact not_or.2 ⟨hne _ rfl, hne _ rfl⟩
  · exact hne _ rfl

/-- An instruction of several bytes that is not one of the ED map writes no special register. -/
theorem SpecialsWrittenBy.prefixCB {j : Instr} {s u : State} (h : SpecialsWrittenBy j s u)
    (hj : 2 ≤ (encode j).length) (hj' : (encode j).head? ≠ some 0xED) : SpecialsWrittenBy .prefixCB s u := by
  have hne (k : Instr) (hk : (encode k).length = 1) : j ≠ k := ne_of_encode_length hj hk
  obtain ⟨halt, hi, hiff1, hiff2, him, hhalted, hhost⟩ := h
  refine ⟨.inl (halt.resolve_right ?_), .inl (hi.resolve_right ?_), .inl (hiff1.resolve_right ?_),
    .inl (hiff2.resolve_right ?_), .inl (him.resolve_right ?_), .inl (hhalted.resolve_right ?_), hhost⟩
  · exact not_or.2 ⟨hne _ rfl, hne _ rfl⟩
  · rintro (rfl | rfl) <;> exact hj' rfl
  · refine not_or.2 ⟨hne _ rfl, not_or.2 ⟨hne _ rfl, ?_⟩⟩
    rintro (rfl | rfl | ⟨_, rfl⟩ | rfl) <;> exact hj' rfl
  · exact not_or.2 ⟨hne _ rfl, hne _ rfl⟩
  · rintro (rfl | ⟨_, rfl⟩ | rfl | rfl | rfl | rfl | rfl) <;> exact hj' rfl
  · exact hne _ rfl

theorem exec_specials (i : Instr) (s : State) : Answers (SpecialsWrittenBy i s) (exec i s) :=
  exec_answers (P := fun i => SpecialsWrittenBy i s) (fun i => exec_specials_of_ne i s)
    (fun _ _ hlen hhead h => h.prefixCB hlen hhead) (fun _ _ hlen h => h.prefixED hlen) i

end Sys2Proof.Machine

namespace Sys2Proof.Proofs

open Sys2Proof.Machine

/-- Settles O6: a pair is a join of its registers, whose number is 256 times the high byte plus the low byte. -/
theorem pairsAreViews : Obligations.PairsAreViews := by
  refine ⟨fun s => ⟨join_toNat _ _, join_toNat _ _, join_toNat _ _, join_toNat _ _⟩,
    fun s p v => ⟨s.pair_setPair p v, s.setPair_onlyPair p v⟩, fun s v => ⟨rfl, rfl, rfl, rfl, rfl, rfl⟩,
    toNat_eq_bytes, fun s x => toNat_eq_bytes (s.xy x)⟩

/-- Settles O7: the bits of F and the parity are read off their 256 values, and the conditions off their codes. -/
theorem flagBitsConditionsParity : Obligations.FlagBitsConditionsParity :=
  ⟨fun f => ⟨f.toByte_toNat, f.ofByte_toByte⟩, fun _ => ⟨rfl, rfl, rfl, rfl, rfl, rfl, rfl, rfl⟩, parity_iff_ones_even⟩

/-- Settles O8: every effect that writes F draws, but for POP AF and EX AF,AF'. -/
theorem flagWritersDraw : Obligations.FlagWritersDraw :=
  fun i s _ hu => (exec_flags i s).of_eq_next hu

/-- Settles O9: instruction by instruction, each special register is written by those named or by none. -/
theorem specialRegisterWriters : Obligations.SpecialRegisterWriters :=
  fun i s _ hu => (exec_specials i s).of_eq_next hu

end Sys2Proof.Proofs
end

section
/-! PROOFS. The family of 20_memory.md. What a byte or word store writes is read off the classes of aliases (R105 to R109).
What a step can do to memory is said once: it is a row of byte stores under the parameters of the state before it. That
a read-only bank keeps its bytes (R113) and that every step keeps the invariant (R17, R54, R112) both follow. -/

namespace Sys2Proof.Machine

/-! ### Classes of aliases, and banks -/

theorem aliasKey_eq_iff_of_unmirrored {a : Word} (ha : a.toNat < 0x2000 ∨ 0x4000 ≤ a.toNat) (b : Word) :
    aliasKey b = aliasKey a ↔ b = a := by
  simp only [aliasKey, BitVec.toNat_eq]
  split_ifs <;> omega

/-- The mirrored pairs of R107, from 0x2000 and from 0x2800. -/
theorem aliasKey_eq_pair_iff {m : Nat} (hm : m = 0x2000 ∨ m = 0x2800) {k : Word} (hk : k.toNat < 0x400) (b : Word) :
    aliasKey b = m + k.toNat ↔ b ∈ [BitVec.ofNat 16 m + k, BitVec.ofNat 16 (m + 0x400) + k] := by
  simp only [List.mem_cons, List.not_mem_nil, or_false, BitVec.toNat_eq, BitVec.toNat_add, BitVec.toNat_ofNat,
    aliasKey]
  split_ifs <;> omega

/-- The quad-mirrored block of R107. -/
theorem aliasKey_eq_quad_iff {k : Word} (hk : k.toNat < 0x400) (b : Word) :
    aliasKey b = 0x3000 + k.toNat ↔ b ∈ quadMirrors k := by
  simp only [quadMirrors, List.mem_cons, List.not_mem_nil, or_false, BitVec.toNat_eq, BitVec.toNat_add,
    BitVec.reduceToNat, aliasKey]
  split_ifs <;> omega

/-- The two bytes of a word never share a byte of memory: an address and the next one, modulo 65536, are no aliases. -/
theorem aliasKey_succ_ne (a : Word) : aliasKey (a + 1) ≠ aliasKey a := by
  have ha := a.isLt
  simp only [aliasKey, BitVec.toNat_add, BitVec.reduceToNat]
  split_ifs <;> omega

/-- Whether an address is writable depends on its bank (R100, R101); the mirrored addresses lie in bank 1. -/
theorem writable_of_aliasKey_bank1 {s : State} {a : Word} (ha : 0x2000 ≤ aliasKey a ∧ aliasKey a < 0x4000) :
    s.writable a = s.writable 0x2000 := by
  have hbank : a.extractLsb' 13 3 = (0x2000 : Word).extractLsb' 13 3 := by
    apply BitVec.eq_of_toNat_eq
    simp only [BitVec.extractLsb'_toNat, Nat.shiftRight_eq_div_pow, BitVec.reduceToNat]
    simp only [aliasKey] at ha
    split_ifs at ha <;> omega
  simp only [State.writable, hbank]

/-! ### A store over the addresses of a class of aliases -/

/-- With `L` the class of aliases of key `n`, which lies in bank 1, a store at an address of `L` writes exactly `L`. -/
theorem State.readByte_writeByte_of_class {s : State} {L : List Word} {n : Nat} (hw : s.writable 0x2000 = true)
    (hn : 0x2000 ≤ n ∧ n < 0x4000) (hL : ∀ c, aliasKey c = n ↔ c ∈ L) {a : Word} (ha : a ∈ L) (b : Word) (v : Byte) :
    (s.writeByte a v).readByte b = if b ∈ L then v else s.readByte b := by
  have hkey : aliasKey a = n := (hL a).2 ha
  have hwa : s.writable a = true := (writable_of_aliasKey_bank1 (hkey ▸ hn)).trans hw
  simp only [State.readByte_writeByte, hwa, true_and, hkey, hL]

theorem State.readByte_writeWord_low {s : State} {a : Word} (h : s.writable a = true) (v : Word) :
    (s.writeWord a v).readByte a = loByte v := by
  rw [s.storedWord_writeWord a v a, if_neg fun hk => aliasKey_succ_ne a hk.2.symm, if_pos ⟨h, rfl⟩]

theorem State.readByte_writeWord_high {s : State} {a : Word} (h : s.writable (a + 1) = true) (v : Word) :
    (s.writeWord a v).readByte (a + 1) = hiByte v := by
  rw [s.storedWord_writeWord a v (a + 1), if_pos ⟨h, rfl⟩]

theorem State.readWord_writeWord {s : State} {a : Word} (hlo : s.writable a = true) (hhi : s.writable (a + 1) = true)
    (v : Word) : (s.writeWord a v).readWord a = v := by
  rw [State.readWord, State.readByte_writeWord_low hlo, State.readByte_writeWord_high hhi, join_hi_lo]

/-- A word store across the boundary of a read-only bank 0 writes the high byte alone (R109). -/
theorem State.readByte_writeWord_1FFF {s : State} (hlo : s.writable 0x1FFF = false) (hhi : s.writable 0x2000 = true)
    (v b : Word) :
    (s.writeWord 0x1FFF v).readByte b = if b = 0x2000 ∨ b = 0x2400 then hiByte v else s.readByte b := by
  have hclass : aliasKey b = aliasKey 0x2000 ↔ b ∈ [0x2000, 0x2400] :=
    aliasKey_eq_pair_iff (.inl rfl) (k := 0) (by decide) b
  rw [s.storedWord_writeWord 0x1FFF v b, show (0x1FFF : Word) + 1 = 0x2000 from rfl]
  simp only [hlo, hhi, hclass, List.mem_cons, List.not_mem_nil, or_false, true_and, false_and, Bool.false_eq_true,
    if_false]

/-! ### Rows of byte stores -/

/-- `m` is the memory that a row of byte stores, made under the parameters of `s`, leaves. -/
def AfterStores (s : State) (m : Memory) : Prop :=
  ∃ ps : List (Word × Byte), m = (ps.foldl (fun t p => t.writeByte p.1 p.2) s).mem

@[simp] theorem afterStores_self (s : State) : AfterStores s s.mem := ⟨[], rfl⟩

theorem State.writeByte_mem_congr {s t : State} (hm : t.mem = s.mem) (hp : t.params = s.params) (a : Word) (v : Byte) :
    (t.writeByte a v).mem = (s.writeByte a v).mem := by
  unfold State.writeByte
  rw [State.writable_congr hp]
  split
  · rw [hm]
  · exact hm

@[simp] theorem AfterStores.writeByte {s t : State} (h : AfterStores s t.mem) (hp : t.params = s.params) (a : Word)
    (v : Byte) : AfterStores s (t.writeByte a v).mem := by
  obtain ⟨ps, hps⟩ := h
  refine ⟨ps ++ [(a, v)], ?_⟩
  rw [List.foldl_append]
  exact State.writeByte_mem_congr hps (hp.trans (State.stores_params ps s).symm) a v

@[simp] theorem AfterStores.writeWord {s t : State} (h : AfterStores s t.mem) (hp : t.params = s.params) (a v : Word) :
    AfterStores s (t.writeWord a v).mem :=
  (h.writeByte hp a _).writeByte ((t.writeByte_params ..).trans hp) _ _

@[simp] theorem AfterStores.push16 {s t : State} (h : AfterStores s t.mem) (hp : t.params = s.params) (v : Word) :
    AfterStores s (t.push16 v).mem :=
  AfterStores.writeWord (t := { t with sp := t.sp - 2 }) h hp _ v

theorem AfterStores.stores {s t : State} (h : AfterStores s t.mem) (hp : t.params = s.params)
    (ps : List (Word × Byte)) : AfterStores s (ps.foldl (fun t p => t.writeByte p.1 p.2) t).mem := by
  induction ps generalizing t with
  | nil => exact h
  | cons p ps ih => exact ih (h.writeByte hp p.1 p.2) ((t.writeByte_params ..).trans hp)

/-! ### What a row of byte stores keeps -/

/-- No store of the row can be seen at an address whose bank is read-only. -/
theorem State.byteAfter_of_readOnly {s : State} {b : Word} (h : s.writable b = false) (ps : List (Word × Byte)) :
    s.byteAfter ps b = s.readByte b := by
  have hnone : (ps.reverse.find? fun p => decide (aliasKey p.1 = aliasKey b) && s.writable p.1) = none := by
    rw [List.find?_eq_none]
    intro p _ hp
    obtain ⟨hkey, hw⟩ : aliasKey p.1 = aliasKey b ∧ s.writable p.1 = true := by simpa using hp
    rw [writable_of_aliasKey hkey, h] at hw
    exact Bool.false_ne_true hw
  rw [State.byteAfter, hnone]

theorem AfterStores.readByte_of_readOnly {s u : State} (h : AfterStores s u.mem) {a : Word}
    (ha : s.writable a = false) : u.readByte a = s.readByte a := by
  obtain ⟨ps, hps⟩ := h
  rw [State.readByte_congr hps, State.readByte_stores, State.byteAfter_of_readOnly ha]

theorem AfterStores.wf {s : State} {m : Memory} (h : AfterStores s m) (hs : Memory.wf s.mem) : Memory.wf m := by
  obtain ⟨ps, rfl⟩ := h
  exact List.foldlRecOn (motive := fun t : State => Memory.wf t.mem) ps _ hs fun _ ht p _ => State.wf_writeByte ht ..

theorem AfterStores.mirrored {s u : State} (h : AfterStores s u.mem) (hs : s.Mirrored) : u.Mirrored := by
  obtain ⟨ps, hps⟩ := h
  exact State.mirrored_congr hps
    (List.foldlRecOn (motive := State.Mirrored) ps _ hs fun _ ht p _ => State.mirrored_writeByte ht p.1 p.2)

/-! ### What every operation of the machine does to memory, IM and the parameters -/

/-- From `s` to `u` memory changes by byte stores only, the parameters stay, and IM is kept or set to a legal mode. -/
structure Evolves (s u : State) : Prop where
  mem : AfterStores s u.mem
  params : u.params = s.params
  im : u.im = s.im ∨ u.im ≠ 3

theorem Evolves.of_eq {s u : State} (hmem : u.mem = s.mem) (hparams : u.params = s.params) (him : u.im = s.im) :
    Evolves s u := ⟨hmem ▸ afterStores_self s, hparams, .inl him⟩

theorem Evolves.refl (s : State) : Evolves s s := .of_eq rfl rfl rfl

theorem Evolves.trans {s t u : State} (hst : Evolves s t) (htu : Evolves t u) : Evolves s u where
  mem := by
    obtain ⟨ps, hps⟩ := htu.mem
    rw [hps]
    exact hst.mem.stores hst.params ps
  params := htu.params.trans hst.params
  im := htu.im.elim (fun h => by rw [h]; exact hst.im) .inr

theorem Evolves.inv {s u : State} (h : Evolves s u) (hs : s.Inv) : u.Inv where
  wf := h.mem.wf hs.wf
  mirrored := h.mem.mirrored hs.mirrored
  im_ne := h.im.elim (fun him => him ▸ hs.im_ne) id
  budget := h.params ▸ hs.budget

/-! ### Instructions -/

@[simp] theorem State.fetched_writeByte_mem (s : State) (len : Word) (m1 : Byte) (c : Count) (a : Word) (v : Byte) :
    ((s.fetched len m1 c).writeByte a v).mem = (s.writeByte a v).mem :=
  State.writeByte_mem_congr (s := s) (t := s.fetched len m1 c) rfl rfl a v
@[simp] theorem State.fetched_writeWord_mem (s : State) (len : Word) (m1 : Byte) (c : Count) (a v : Word) :
    ((s.fetched len m1 c).writeWord a v).mem = (s.writeWord a v).mem :=
  State.writeByte_mem_congr (s.fetched_writeByte_mem ..) (by simp) _ _
@[simp] theorem State.fetched_push16_mem (s : State) (len : Word) (m1 : Byte) (c : Count) (v : Word) :
    ((s.fetched len m1 c).push16 v).mem = (s.push16 v).mem :=
  State.fetched_writeWord_mem { s with sp := s.sp - 2 } len m1 c _ v
@[simp] theorem State.blockMove_mem (back : Bool) (s : State) :
    (s.blockMove back).mem = (s.writeByte s.main.de (s.readByte s.main.hl)).mem := rfl
@[simp] theorem State.blockIn_mem (back : Bool) (s : State) :
    (s.blockIn back).mem = (s.writeByte s.main.hl (s.portRead s.main.b s.main.c)).mem := rfl
@[simp] theorem State.loadSpecial_mem (s : State) (v : Byte) : (s.loadSpecial v).mem = s.mem := rfl

/-- The two bytes that select a map apart, an instruction leaves memory as it is or makes a byte store, a word store
or a push. -/
theorem exec_afterStores_of_ne (i : Instr) (s : State) (hcb : i ≠ .prefixCB) (hed : i ≠ .prefixED) :
    Answers (fun u => AfterStores s u.mem) (exec i s) := by
  cases i
  case prefixCB => exact absurd rfl hcb
  case prefixED => exact absurd rfl hed
  case jpCond | jrCond | djnz | callCond | retCond => exact .of_ite (by simp) (by simp)
  all_goals exact .of_next (by simp)

/-- Only the forms of IM write IM, and each sets one of the modes 0, 1 and 2 (R54, R369). -/
theorem exec_im_of_ne (i : Instr) (s : State) (hed : i ≠ .prefixED) :
    Answers (fun u => u.im = s.im ∨ u.im ≠ 3) (exec i s) := by
  obtain ⟨u, hu, -, -, -, -, him, -⟩ := exec_specials i s
  simp only [hed, or_false] at him
  obtain him | rfl | ⟨y, rfl⟩ | rfl | rfl | rfl | rfl := him
  · exact ⟨u, hu, .inl him⟩
  all_goals exact .of_next (.inr (by simp))

theorem exec_evolves (i : Instr) (s : State) : Answers (Evolves s) (exec i s) := by
  have hmem : Answers (fun u => AfterStores s u.mem) (exec i s) :=
    exec_answers (P := fun _ u => AfterStores s u.mem) (fun i => exec_afterStores_of_ne i s)
      (fun _ _ _ _ h => h) (fun _ _ _ h => h) i
  have him : Answers (fun u => u.im = s.im ∨ u.im ≠ 3) (exec i s) :=
    exec_answers (P := fun _ u => u.im = s.im ∨ u.im ≠ 3) (fun i _ => exec_im_of_ne i s)
      (fun _ _ _ _ h => h) (fun _ _ _ h => h) i
  obtain ⟨u, hu, hparams⟩ := exec_keepsParams i s
  exact ⟨u, hu, hmem.of_eq_next hu, hparams, him.of_eq_next hu⟩

/-! ### Host actions -/

theorem State.tick_evolves (s : State) : Evolves s s.tick := by
  unfold State.tick
  dsimp only
  repeat' split
  all_goals exact .of_eq rfl rfl rfl

/-- The tape routine's stores are a row of byte stores, and it sets neither IM nor a parameter (R641). -/
theorem State.tapeReturn_evolves (s : State) (x : TapeResult) : Evolves s (s.tapeReturn x) := by
  refine ⟨?_, s.tapeReturn_params x, ?_⟩
  all_goals unfold State.tapeReturn; split
  · exact ⟨x.stores, rfl⟩
  · exact afterStores_self s
  · exact .inl (congrArg State.im (State.stores_frame x.stores s) :)
  · exact .inl rfl

theorem State.hostAction_evolves (s : State) (e : HostEvent) : Evolves s (s.hostAction e) := by
  cases e with
  | tick => exact s.tick_evolves
  | resetRequest => exact .of_eq rfl rfl rfl
  | setSpeed v => exact .of_eq rfl rfl rfl
  | tapeReturn x => exact s.tapeReturn_evolves x

theorem State.hostActions_evolves (es : List HostEvent) (s : State) : Evolves s (es.foldl State.hostAction s) := by
  induction es generalizing s with
  | nil => exact .refl s
  | cons e es ih => exact (s.hostAction_evolves e).trans (ih _)

theorem State.takeInbox_evolves (s : State) : Evolves s s.takeInbox := by
  unfold State.takeInbox
  split
  · exact .refl s
  · next es rest _ =>
    have hrest : Evolves s { s with inbox := rest } := .of_eq rfl rfl rfl
    exact hrest.trans (State.hostActions_evolves es _)

/-! ### Boundary actions and the step -/

/-- The interrupt's push is a word store like any other (R610). -/
theorem State.acceptInterrupt_evolves (s : State) : Evolves s s.acceptInterrupt := ⟨by simp, by simp, by simp⟩

theorem State.resetCore_evolves (s : State) : Evolves s s.resetCore := ⟨by simp, by simp, .inr (by simp)⟩

theorem State.sampleRequest_evolves (s : State) : Evolves s s.sampleRequest := by
  have hclear : Evolves s { s with request := .idle } := .of_eq rfl rfl rfl
  unfold State.sampleRequest
  split
  · exact hclear.trans (State.resetCore_evolves _)
  · split
    · exact hclear.trans (State.acceptInterrupt_evolves _)
    · exact hclear
  · exact hclear

theorem State.boundary_evolves (s : State) : Evolves s s.boundary := by
  obtain ⟨r, hb, -⟩ := s.boundary_cases
  rw [hb]
  exact s.sampleRequest_evolves.trans (.of_eq rfl rfl rfl)

theorem State.idleCycle_evolves (s : State) : Evolves s s.idleCycle := by
  have hcost : Evolves s { s with r := s.r + 1, tstates := s.tstates + 4 } := .of_eq rfl rfl rfl
  exact hcost.trans (State.boundary_evolves _)

theorem State.finish_evolves (s : State) : Evolves s s.finish := by
  unfold State.finish
  split
  · exact .refl s
  · exact s.boundary_evolves

/-- Whatever a step does after its host actions, it evolves the state they left. -/
theorem step_evolves (s : State) : Answers (Evolves s) (step s) := by
  have hinbox := s.takeInbox_evolves
  unfold step
  dsimp only
  cases s.takeInbox.activity with
  | wait => exact .of_next hinbox
  | idle => exact .of_next (hinbox.trans (State.idleCycle_evolves _))
  | trap k => exact .of_next (hinbox.trans (.of_eq rfl rfl rfl))
  | execute =>
    obtain ⟨t, ht, hexec⟩ := exec_evolves s.takeInbox.nextInstr s.takeInbox
    rw [ht]
    exact .of_next ((hinbox.trans hexec).trans t.finish_evolves)

/-! ### Keyboard rows -/

theorem keyRowIndex_keyMask (k : Fin 8) : keyRowIndex (Spec.keyMask.get k) = some (BitVec.ofFin k) := by
  revert k
  decide

theorem keyRowIndex_of_not_mem {hi : Byte} (h : hi ∉ Spec.keyMask) : keyRowIndex hi = none := by
  simp only [Spec.keyMask, List.mem_cons, List.not_mem_nil, or_false, not_or] at h
  simp only [keyRowIndex, h, if_false]

end Sys2Proof.Machine

namespace Sys2Proof.Proofs

open Sys2Proof.Machine

/-- Settles O12: a step's stores are byte stores, none of which can be seen in a read-only bank. -/
theorem readOnlyBanksNeverChange : Obligations.ReadOnlyBanksNeverChange :=
  fun s _ _ hu ha => ((step_evolves s).of_eq_next hu).mem.readByte_of_readOnly ha

/-- Settles O13: byte stores keep memory canonical and mirrored, and a step keeps the budget and sets IM to no other
than a legal mode. -/
theorem stepKeepsInvariant : Obligations.StepKeepsInvariant :=
  fun s _ hs hu => ((step_evolves s).of_eq_next hu).inv hs

/-- Settles O10: the addresses a store writes are the aliases of its address, listed range by range. -/
theorem storeWritesItsAliases : Obligations.StoreWritesItsAliases := by
  refine ⟨fun s a v hw => ?_, fun s a v ha hw b => ?_, fun s k v hw hk => ⟨?_, ?_, ?_⟩⟩
  · simp [State.writeByte, hw]
  · simp only [State.readByte_writeByte, hw, true_and, aliasKey_eq_iff_of_unmirrored ha]
  · exact fun a ha b => State.readByte_writeByte_of_class hw (by omega) (aliasKey_eq_pair_iff (.inl rfl) hk) ha b v
  · exact fun a ha b => State.readByte_writeByte_of_class hw (by omega) (aliasKey_eq_pair_iff (.inr rfl) hk) ha b v
  · exact fun a ha b => State.readByte_writeByte_of_class hw (by omega) (aliasKey_eq_quad_iff hk) ha b v

/-- Settles O11: a word is the join of its two bytes, and its two stores never write a common address. -/
theorem wordsAreLittleEndian : Obligations.WordsAreLittleEndian := by
  refine ⟨fun s a => ?_, State.storedWord_writeWord, fun s a v hlo hhi => ?_, fun s v hlo hhi b => ?_⟩
  · rw [State.readWord, join_toNat, Nat.add_comm]
  · exact ⟨State.readByte_writeWord_low hlo v, State.readByte_writeWord_high hhi v, State.readWord_writeWord hlo hhi v⟩
  · exact State.readByte_writeWord_1FFF hlo hhi v b

/-- Settles O14: after reset memory lists nothing, so that every address reads the same byte. -/
theorem resetHasInvariant : Obligations.ResetHasInvariant where
  wf := State.wf_reset
  mirrored := fun _ _ _ => rfl
  im_ne := by decide
  budget := by decide

/-- Settles O45: KEYMASK lists the high bytes that select the rows, in order, and every other port is open bus. -/
theorem portReads : Obligations.PortReads := by
  refine ⟨fun s k => ?_, fun s hi lo h => ?_⟩
  · simp [State.portRead, keyRowIndex_keyMask]
  · obtain hlo | hhi := h
    · rw [State.portRead, if_neg hlo]
    · simp [State.portRead, keyRowIndex_of_not_mem hhi]

end Sys2Proof.Proofs
end

section
/-! PROOFS. The family of 30_encoding.md, the decoder. What each opcode map answers is said once, byte by byte: the
encoding, the well-formedness and the own index prefix of the instruction it gives (R163 to R167). Encoding and decoding
are inverse to each other by the ways a list of bytes can begin, and an instruction's length (R161) is that of its
encoding. -/

namespace Sys2Proof

open Machine

/-! ### The fields of a byte, to split a case on -/

/-- The four values of a 2-bit field. -/
theorem bitVec2_cases {P : BitVec 2 → Prop} (c0 : P 0) (c1 : P 1) (c2 : P 2) (c3 : P 3) (p : BitVec 2) : P p := by
  have hp : ∀ p : BitVec 2, p = 0 ∨ p = 1 ∨ p = 2 ∨ p = 3 := by decide
  obtain rfl | rfl | rfl | rfl := hp p <;> assumption

/-- The eight values of a 3-bit field. -/
theorem bitVec3_cases {P : BitVec 3 → Prop} (c0 : P 0) (c1 : P 1) (c2 : P 2) (c3 : P 3) (c4 : P 4) (c5 : P 5)
    (c6 : P 6) (c7 : P 7) (y : BitVec 3) : P y := by
  have hy : ∀ y : BitVec 3, y = 0 ∨ y = 1 ∨ y = 2 ∨ y = 3 ∨ y = 4 ∨ y = 5 ∨ y = 6 ∨ y = 7 := by decide
  obtain rfl | rfl | rfl | rfl | rfl | rfl | rfl | rfl := hy y <;> assumption

theorem opByte_fields (op : Byte) : opByte (fieldX op) (fieldY op) (fieldZ op) = op := by
  revert op
  decide

/-- An opcode byte is made of its fields x, y and z (R151). -/
theorem opByte_cases {P : Byte → Prop} (h : ∀ x y z, P (opByte x y z)) (op : Byte) : P op := by
  rw [← opByte_fields op]
  exact h _ _ _

/-- Two bytes are the low and the high byte of a word. -/
theorem word_cases {P : Byte → Byte → Prop} (h : ∀ nn, P (loByte nn) (hiByte nn)) (lo hi : Byte) : P lo hi := by
  simpa only [loByte_join, hiByte_join] using h (join hi lo)

/-! ### What the opcode maps give -/

/-- The instruction `i` was read from `bytes`: these are its encoding, it is well formed, and its own index prefix is
that of `own`. -/
structure ReadFrom (own : Option IndexReg) (bytes : List Byte) (i : Instr) : Prop where
  encode_eq : encode i = bytes
  wellFormed : i.wellFormed = true
  ownIndex_eq : ownIndex i = own

theorem decodeMain_readFrom (op n1 n2 : Byte) :
    ReadFrom none ([op, n1, n2].take (1 + immLength op)) (decodeMain op n1 n2) := by
  cases n1, n2 using word_cases with | _ nn
  unfold decodeMain decodeQuarter0 decodeQuarter3
  rw [join_hi_lo]
  cases op using opByte_cases with | _ x y z
  cases x using bitVec2_cases <;> cases y using bitVec3_cases <;> cases z using bitVec3_cases <;> exact ⟨rfl, rfl, rfl⟩

theorem decodeCB_readFrom (op2 : Byte) : ReadFrom none [0xCB, op2] (decodeCB op2) := by
  cases op2 using opByte_cases with | _ x y z
  cases x using bitVec2_cases <;> cases y using bitVec3_cases <;> cases z using bitVec3_cases <;> exact ⟨rfl, rfl, rfl⟩

theorem decodeXYCB_readFrom (x : IndexReg) (d op2 : Byte) :
    ReadFrom (some x) [x.byte, 0xCB, d, op2] (decodeXYCB x d op2) := by
  cases op2 using opByte_cases with | _ k y z
  cases k using bitVec2_cases <;> cases y using bitVec3_cases <;> cases z using bitVec3_cases <;> exact ⟨rfl, rfl, rfl⟩

theorem decodeED_readFrom (op2 lo hi : Byte) :
    ReadFrom none ([0xED, op2, lo, hi].take (edLength op2)) (decodeED op2 lo hi) := by
  cases lo, hi using word_cases with | _ nn
  unfold decodeED decodeED1
  rw [join_hi_lo]
  cases op2 using opByte_cases with | _ x y z
  cases x using bitVec2_cases <;> cases y using bitVec3_cases <;> cases z using bitVec3_cases <;> exact ⟨rfl, rfl, rfl⟩

/-- The length of the instruction that an index prefix and an opcode of class 1, 2 or 3 begin (R161). -/
def indexedLength (op : Byte) : Nat := 2 + immLength op + if class1Bytes.contains op then 1 else 0

/-- An index prefix changes just the opcodes that neither ignore it nor select another map. -/
theorem map_decodeIndexed (x : IndexReg) (op b1 b2 : Byte) :
    (decodeIndexed x op b1 b2).map (fun j => (encode j, j.wellFormed, ownIndex j)) =
      if ignoresPrefix op || op == 0xCB then none
      else some ([x.byte, op, b1, b2].take (indexedLength op), true, some x) := by
  cases b1, b2 using word_cases with | _ nn
  unfold decodeIndexed
  rw [join_hi_lo]
  cases op using opByte_cases with | _ k y z
  cases k using bitVec2_cases <;> cases y using bitVec3_cases <;> cases z using bitVec3_cases <;> rfl

theorem decodeIndexed_of_ignoresPrefix {op : Byte} (h : ignoresPrefix op = true) (x : IndexReg) (b1 b2 : Byte) :
    decodeIndexed x op b1 b2 = none := by
  simpa [h] using map_decodeIndexed x op b1 b2

theorem decodeIndexed_readFrom {op : Byte} (h : ignoresPrefix op = false) (hcb : op ≠ 0xCB) (x : IndexReg)
    (b1 b2 : Byte) : ∃ j, decodeIndexed x op b1 b2 = some j ∧
      ReadFrom (some x) ([x.byte, op, b1, b2].take (indexedLength op)) j := by
  have hmap := map_decodeIndexed x op b1 b2
  simp only [h, beq_iff_eq, hcb, Bool.false_or, if_false, Option.map_eq_some_iff, Prod.mk.injEq] at hmap
  obtain ⟨j, hj, hencode, hwf, hown⟩ := hmap
  exact ⟨j, hj, hencode, hwf, hown⟩

/-! ### Prefix bytes -/

theorem IndexReg.byte_of_ofByte {b : Byte} {x : IndexReg} (h : IndexReg.ofByte b = some x) : b = x.byte := by
  unfold IndexReg.ofByte at h
  split_ifs at h <;> cases h <;> assumption

theorem not_mem_prefixBytes {op : Byte} :
    op ∉ prefixBytes ↔ IndexReg.ofByte op = none ∧ op ≠ 0xCB ∧ op ≠ 0xED := by
  unfold IndexReg.ofByte
  split_ifs <;> simp_all [prefixBytes]

theorem ignoresPrefix_eq_false {op : Byte} :
    ignoresPrefix op = false ↔ isClass4 op = false ∧ op ≠ 0xED ∧ IndexReg.ofByte op = none := by
  simp only [ignoresPrefix, Bool.or_eq_false_iff, beq_eq_false_iff_ne, Option.isSome_eq_false_iff,
    Option.isNone_iff_eq_none, and_assoc]

theorem ignoresPrefix_of_class4 {op : Byte} (h : isClass4 op = true) : ignoresPrefix op = true := by
  simp only [ignoresPrefix, h, Bool.true_or]

theorem ne_CB_of_ignoresPrefix {op : Byte} (h : ignoresPrefix op = true) : op ≠ 0xCB := by
  rintro rfl
  revert h
  decide

theorem not_mem_prefixBytes_of_class4 {op : Byte} (h : isClass4 op = true) : op ∉ prefixBytes := by
  intro hop
  simp [isClass4, hop] at h

theorem decodePrefix_readFrom {op : Byte} (h : ignoresPrefix op = true) (x : IndexReg) :
    ReadFrom none [x.byte, op] (decodePrefix x op) := by
  unfold decodePrefix
  cases hj : IndexReg.ofByte op with
  | some j => exact ⟨by rw [IndexReg.byte_of_ofByte hj]; rfl, rfl, rfl⟩
  | none =>
    dsimp only
    split_ifs with hcb hed h4
    · exact absurd hcb (ne_CB_of_ignoresPrefix h)
    · exact ⟨by rw [hed]; rfl, rfl, rfl⟩
    · exact ⟨rfl, h4, rfl⟩
    · rw [ignoresPrefix_eq_false.2 ⟨Bool.eq_false_of_not_eq_true h4, hed, hj⟩] at h
      cases h

theorem decodePrefix_of_class4 {w : Byte} (h : isClass4 w = true) (x : IndexReg) :
    decodePrefix x w = .ignoredIndexPrefix x w := by
  obtain ⟨hx, hcb, hed⟩ := not_mem_prefixBytes.1 (not_mem_prefixBytes_of_class4 h)
  simp only [decodePrefix, hx, hcb, hed, h, if_true, if_false]

/-! ### What a list of bytes begins with -/

/-- The ways a list of bytes can begin. -/
theorem bytes_cases {P : List Byte → Prop} (nil : P []) (main : ∀ op t, op ∉ prefixBytes → P (op :: t))
    (loneCB : P [0xCB]) (CB : ∀ op2 t, P (0xCB :: op2 :: t)) (loneED : P [0xED]) (ED : ∀ op2 t, P (0xED :: op2 :: t))
    (loneIndex : ∀ x : IndexReg, P [x.byte]) (loneXYCB : ∀ x : IndexReg, P [x.byte, 0xCB])
    (XYCB : ∀ (x : IndexReg) d t, P (x.byte :: 0xCB :: d :: t))
    (indexed : ∀ (x : IndexReg) op t, op ≠ 0xCB → P (x.byte :: op :: t)) (bs : List Byte) : P bs := by
  obtain _ | ⟨b, t⟩ := bs
  · exact nil
  obtain hx | ⟨x, hx⟩ := Option.eq_none_or_eq_some (IndexReg.ofByte b)
  · by_cases hcb : b = 0xCB
    · obtain _ | ⟨op2, t⟩ := t
      exacts [hcb ▸ loneCB, hcb ▸ CB op2 t]
    by_cases hed : b = 0xED
    · obtain _ | ⟨op2, t⟩ := t
      exacts [hed ▸ loneED, hed ▸ ED op2 t]
    exact main b t (not_mem_prefixBytes.2 ⟨hx, hcb, hed⟩)
  · obtain rfl := IndexReg.byte_of_ofByte hx
    obtain _ | ⟨op, t⟩ := t
    · exact loneIndex x
    by_cases hcb : op = 0xCB
    · obtain _ | ⟨d, t⟩ := t
      exacts [hcb ▸ loneXYCB x, hcb ▸ XYCB x d t]
    exact indexed x op t hcb

theorem decodeAt_main {op : Byte} (h : op ∉ prefixBytes) (b1 b2 b3 : Byte) :
    decodeAt none op b1 b2 b3 = decodeMain op b1 b2 := by
  obtain ⟨hx, hcb, hed⟩ := not_mem_prefixBytes.1 h
  simp only [decodeAt, hx, hcb, hed, if_false]

theorem decodeWhole_main {op : Byte} (h : op ∉ prefixBytes) (t : List Byte) :
    decodeWhole (op :: t) = decodeMain op (t.getD 0 0) (t.getD 1 0) := by
  obtain ⟨hx, hcb, hed⟩ := not_mem_prefixBytes.1 h
  simp only [decodeWhole, List.getD_cons_zero, List.getD_cons_succ, hx, hcb, hed, and_false, if_false, decodeAt_main h]

theorem decodeWhole_CB (op2 : Byte) (t : List Byte) : decodeWhole (0xCB :: op2 :: t) = decodeCB op2 := by
  simp [decodeWhole, decodeAt, IndexReg.ofByte]

theorem decodeWhole_ED (op2 : Byte) (t : List Byte) :
    decodeWhole (0xED :: op2 :: t) = decodeED op2 (t.getD 0 0) (t.getD 1 0) := by
  simp [decodeWhole, decodeAt, IndexReg.ofByte]

theorem decodeWhole_XYCB (x : IndexReg) (d : Byte) (t : List Byte) :
    decodeWhole (x.byte :: 0xCB :: d :: t) = decodeXYCB x d (t.getD 0 0) := by
  simp [decodeWhole, IndexReg.ofByte_byte]

theorem decodeWhole_XYCB_cons (x : IndexReg) (d op2 : Byte) (t : List Byte) :
    decodeWhole (x.byte :: 0xCB :: d :: op2 :: t) = decodeXYCB x d op2 := decodeWhole_XYCB x d (op2 :: t)

theorem decodeWhole_indexed (x : IndexReg) {op : Byte} (h : op ≠ 0xCB) (t : List Byte) :
    decodeWhole (x.byte :: op :: t) = (decodeIndexed x op (t.getD 0 0) (t.getD 1 0)).getD (decodePrefix x op) := by
  simp only [decodeWhole, List.getD_cons_zero, List.getD_cons_succ, List.length_cons, IndexReg.ofByte_byte, h,
    and_false, if_false, Nat.add_eq_right, Nat.succ_ne_zero]

theorem decodeWhole_of_ignoresPrefix {op : Byte} (h : ignoresPrefix op = true) (x : IndexReg) (t : List Byte) :
    decodeWhole (x.byte :: op :: t) = decodePrefix x op := by
  rw [decodeWhole_indexed x (ne_CB_of_ignoresPrefix h), decodeIndexed_of_ignoresPrefix h, Option.getD_none]

/-! ### Encoding what was decoded -/

theorem encode_length_pos (i : Instr) : 1 ≤ (encode i).length := by cases i <;> exact Nat.le_of_ble_eq_true rfl

/-- An instruction is at most 4 bytes long (R150). -/
theorem encode_length_le (i : Instr) : (encode i).length ≤ 4 := by cases i <;> exact Nat.le_of_ble_eq_true rfl

theorem getD_pair_prefix (t : List Byte) : [t.getD 0 0, t.getD 1 0] <+: t ++ [0, 0] := by
  obtain _ | ⟨a, _ | ⟨b, t⟩⟩ := t <;> simp

theorem take_getD_pair_prefix (l t : List Byte) (n : Nat) :
    (l ++ [t.getD 0 0, t.getD 1 0]).take n <+: l ++ t ++ [0, 0] := by
  rw [List.append_assoc]
  exact (List.take_prefix ..).trans ((List.prefix_append_right_inj l).2 (getD_pair_prefix t))

/-- What a list begins with is well formed, and its encoding begins the list, bytes past the end taken as zeros. -/
theorem decodeWhole_sound {bs : List Byte} (hne : bs ≠ []) :
    (decodeWhole bs).wellFormed = true ∧ encode (decodeWhole bs) <+: bs ++ [0, 0] := by
  cases bs using bytes_cases with
  | nil => exact absurd rfl hne
  | main op t h =>
    have hr := decodeMain_readFrom op (t.getD 0 0) (t.getD 1 0)
    rw [decodeWhole_main h, hr.encode_eq]
    exact ⟨hr.wellFormed, take_getD_pair_prefix [op] t _⟩
  | loneCB => exact ⟨rfl, by decide⟩
  | CB op2 t =>
    have hr := decodeCB_readFrom op2
    rw [decodeWhole_CB, hr.encode_eq]
    exact ⟨hr.wellFormed, List.prefix_append [0xCB, op2] _⟩
  | loneED => exact ⟨rfl, by decide⟩
  | ED op2 t =>
    have hr := decodeED_readFrom op2 (t.getD 0 0) (t.getD 1 0)
    rw [decodeWhole_ED, hr.encode_eq]
    exact ⟨hr.wellFormed, take_getD_pair_prefix [0xED, op2] t _⟩
  | loneIndex x => cases x <;> exact ⟨rfl, by decide⟩
  | loneXYCB x => cases x <;> exact ⟨rfl, by decide⟩
  | XYCB x d t =>
    have hr := decodeXYCB_readFrom x d (t.getD 0 0)
    rw [decodeWhole_XYCB, hr.encode_eq]
    exact ⟨hr.wellFormed, take_getD_pair_prefix [x.byte, 0xCB, d] t 4⟩
  | indexed x op t hcb =>
    by_cases h : ignoresPrefix op = true
    · have hr := decodePrefix_readFrom h x
      rw [decodeWhole_of_ignoresPrefix h, hr.encode_eq]
      exact ⟨hr.wellFormed, List.prefix_append [x.byte, op] _⟩
    · obtain ⟨j, hj, hr⟩ := decodeIndexed_readFrom (Bool.eq_false_of_not_eq_true h) hcb x (t.getD 0 0) (t.getD 1 0)
      rw [decodeWhole_indexed x hcb, hj, Option.getD_some, hr.encode_eq]
      exact ⟨hr.wellFormed, take_getD_pair_prefix [x.byte, op] t _⟩

theorem encode_decodeWhole_prefix {bs : List Byte} (hne : bs ≠ [])
    (h : (encode (decodeWhole bs)).length ≤ bs.length) : encode (decodeWhole bs) <+: bs :=
  List.prefix_of_prefix_length_le (decodeWhole_sound hne).2 (List.prefix_append ..) h

theorem decode_eq_ok_iff {bs rest : List Byte} {i : Instr} :
    decode bs = .ok i rest ↔
      bs ≠ [] ∧ i = decodeWhole bs ∧ (encode i).length ≤ bs.length ∧ rest = bs.drop (encode i).length := by
  unfold decode
  dsimp only
  split_ifs with hnil hlen
  · simp [hnil]
  · refine ⟨nofun, ?_⟩
    rintro ⟨-, rfl, hle, -⟩
    exact absurd hlen (Nat.not_lt.2 hle)
  · rw [Decoded.ok.injEq]
    constructor
    · rintro ⟨rfl, rfl⟩
      exact ⟨hnil, rfl, Nat.not_lt.1 hlen, rfl⟩
    · rintro ⟨-, rfl, -, rfl⟩
      exact ⟨rfl, rfl⟩

/-! ### Decoding what was encoded -/

/-- Every byte R159 lists is a hole of the ED map. -/
theorem decodeED_of_hole {w : Byte} (h : isEdHole w = true) (lo hi : Byte) : decodeED w lo hi = .edHole w := by
  have hif : (if isEdHole w then decodeED w lo hi else .edHole w) = .edHole w := by
    cases w using opByte_cases with | _ x y z
    cases x using bitVec2_cases <;> cases y using bitVec3_cases <;> cases z using bitVec3_cases <;> rfl
  rwa [if_pos h] at hif

/-- The prefix bytes that stand for themselves only at the end of a list, where no byte follows that would tell the
instruction they begin. -/
def Instr.IsLonePrefix (i : Instr) : Prop :=
  i = .prefixCB ∨ i = .prefixED ∨ (∃ x, i = .prefixIndex x) ∨ ∃ x, i = .prefixCBAfterIndex x

/-- Map by map, an encoding is read back as its instruction, whatever follows: the operands that are fields of an opcode
byte are split into their values, and a word operand is the join of its two bytes. -/
theorem decodeWhole_encode_append {i : Instr} (hwf : i.wellFormed = true) (hlone : ¬ i.IsLonePrefix)
    (rest : List Byte) : decodeWhole (encode i ++ rest) = i := by
  cases i
  case prefixCB | prefixED | prefixIndex | prefixCBAfterIndex => simp [Instr.IsLonePrefix] at hlone
  -- the main map (R163)
  case ldIndHLN | ldAIndBC | ldAIndDE | ldIndBCA | ldIndDEA | ldSPHL | exDEHL | exAFAF | exx | exSPHL | addN | addIndHL
      | adcN | adcIndHL | subN | subIndHL | sbcN | sbcIndHL | andN | andIndHL | xorN | xorIndHL | orN | orIndHL | cpN
      | cpIndHL | incIndHL | decIndHL | daa | cpl | ccf | scf | nop | halt | di | ei | rlca | rla | rrca | rra | jr
      | jpHL | djnz | ret | inAN | outNA =>
    exact decodeWhole_main (by decide) _
  case rst t => cases t using bitVec3_cases <;> exact decodeWhole_main (by decide) _
  case jrCond cc e =>
    cases cc
    case nz | z | nc | c => exact decodeWhole_main (by decide) _
    all_goals cases hwf
  case retCond cc => cases cc <;> exact decodeWhole_main (by decide) _
  case addHLPair p | incPair p | decPair p => cases p <;> exact decodeWhole_main (by decide) _
  case pushPair q | popPair q => cases q <;> exact decodeWhole_main (by decide) _
  case ldRN r _ => cases r <;> exact decodeWhole_main (by decide) _
  case ldRIndHL r | ldIndHLR r | addR r | adcR r | subR r | sbcR r | andR r | xorR r | orR r | cpR r | incR r
      | decR r =>
    cases r <;> exact decodeWhole_main (by decide) _
  case ldRR r s => cases r <;> cases s <;> exact decodeWhole_main (by decide) _
  case ldAMem nn | ldMemA nn | ldHLMem nn | ldMemHL nn | jp nn | call nn =>
    conv_rhs => rw [← join_hi_lo nn]
    exact decodeWhole_main (by decide) _
  case jpCond cc nn | callCond cc nn =>
    conv_rhs => rw [← join_hi_lo nn]
    cases cc <;> exact decodeWhole_main (by decide) _
  case ldPairNN p nn =>
    conv_rhs => rw [← join_hi_lo nn]
    cases p <;> exact decodeWhole_main (by decide) _
  -- the CB map (R164)
  case rlcIndHL | rrcIndHL | rlIndHL | rrIndHL | slaIndHL | sraIndHL | sllIndHL | srlIndHL => exact decodeWhole_CB _ _
  case rlcR s | rrcR s | rlR s | rrR s | slaR s | sraR s | sllR s | srlR s => cases s <;> exact decodeWhole_CB _ _
  case bitIndHL b | setIndHL b | resIndHL b => cases b using bitVec3_cases <;> exact decodeWhole_CB _ _
  case bitR b s | setR b s | resR b s => cases b using bitVec3_cases <;> cases s <;> exact decodeWhole_CB _ _
  -- the xycb map (R167)
  case rlcIndXY x d | rrcIndXY x d | rlIndXY x d | rrIndXY x d | slaIndXY x d | sraIndXY x d | sllIndXY x d
      | srlIndXY x d =>
    exact decodeWhole_XYCB_cons x _ _ _
  case rlcIndXYR x d s | rrcIndXYR x d s | rlIndXYR x d s | rrIndXYR x d s | slaIndXYR x d s | sraIndXYR x d s
      | sllIndXYR x d s | srlIndXYR x d s =>
    cases s <;> exact decodeWhole_XYCB_cons x _ _ _
  case bitIndXY x d b | setIndXY x d b | resIndXY x d b =>
    cases b using bitVec3_cases <;> exact decodeWhole_XYCB_cons x _ _ _
  case bitIndXYDup x d b s | setIndXYR x d b s | resIndXYR x d b s =>
    cases b using bitVec3_cases <;> cases s <;> exact decodeWhole_XYCB_cons x _ _ _
  -- the ED map, with its duplicates and holes (R165, R158, R159)
  case ldAI | ldAR | ldIA | ldRA | ldi | ldir | ldd | lddr | cpi | cpir | cpd | cpdr | neg | im0 | im1 | im1Dup | im2
      | im2Dup | rld | rrd | reti | retn | inFC | ini | inir | ind | indr | outC0 | outi | otir | outd | otdr =>
    exact decodeWhole_ED _ _
  case edHole w => exact (decodeWhole_ED w rest).trans (decodeED_of_hole hwf _ _)
  case negDup y =>
    cases y using bitVec3_cases
    case c0 => cases hwf
    all_goals exact decodeWhole_ED _ _
  case retnDup y =>
    cases y using bitVec3_cases
    case c0 | c1 => cases hwf
    all_goals exact decodeWhole_ED _ _
  case im0Dup y =>
    cases y using bitVec3_cases
    case c1 | c4 | c5 => exact decodeWhole_ED _ _
    all_goals cases hwf
  case inRC r | outCR r => cases r <;> exact decodeWhole_ED _ _
  case adcHLPair p | sbcHLPair p => cases p <;> exact decodeWhole_ED _ _
  case ldPairMem p nn | ldMemPair p nn =>
    conv_rhs => rw [← join_hi_lo nn]
    cases p <;> exact decodeWhole_ED _ _
  -- the main map under an index prefix (R166), and the prefixes that change nothing (R160)
  case ldSPXY x | pushXY x | popXY x | exSPXY x | incXY x | decXY x | jpXY x | prefixEDAfterIndex x =>
    exact decodeWhole_indexed x (by decide) _
  case addIndXY x _ | adcIndXY x _ | subIndXY x _ | sbcIndXY x _ | andIndXY x _ | xorIndXY x _ | orIndXY x _
      | cpIndXY x _ | incIndXY x _ | decIndXY x _ =>
    exact decodeWhole_indexed x (by decide) _
  case ldIndXYN x _ _ => exact decodeWhole_indexed x (by decide) _
  case ldXYNN x nn | ldXYMem x nn | ldMemXY x nn =>
    conv_rhs => rw [← join_hi_lo nn]
    exact decodeWhole_indexed x (by decide) _
  case ldRIndXY x r _ | ldIndXYR x r _ => cases r <;> exact decodeWhole_indexed x (by decide) _
  case addXYPair x p => cases p <;> exact decodeWhole_indexed x (by decide) _
  case addHalf x h | adcHalf x h | subHalf x h | sbcHalf x h | andHalf x h | xorHalf x h | orHalf x h | cpHalf x h
      | incHalf x h | decHalf x h =>
    cases h <;> exact decodeWhole_indexed x (by decide) _
  case ldHalfN x h _ => cases h <;> exact decodeWhole_indexed x (by decide) _
  case ldHalfR x h s => cases h <;> cases s <;> exact decodeWhole_indexed x (by decide) _
  case ldRHalf x r h =>
    cases r
    case h | l => cases hwf
    all_goals cases h <;> exact decodeWhole_indexed x (by decide) _
  case prefixRestart x j => cases j <;> exact decodeWhole_indexed x (by decide) _
  case ignoredIndexPrefix x w =>
    exact (decodeWhole_of_ignoresPrefix (ignoresPrefix_of_class4 hwf) x rest).trans (decodePrefix_of_class4 hwf x)

theorem decode_encode_append {i : Instr} (hwf : i.wellFormed = true) (hlone : ¬ i.IsLonePrefix) (rest : List Byte) :
    decode (encode i ++ rest) = .ok i rest := by
  refine decode_eq_ok_iff.2 ⟨fun hnil => ?_, (decodeWhole_encode_append hwf hlone rest).symm, by simp, by simp⟩
  have hpos := encode_length_pos i
  rw [(List.append_eq_nil_iff.1 hnil).1] at hpos
  cases hpos

theorem decode_encode_of_isLonePrefix {i : Instr} (h : i.IsLonePrefix) : decode (encode i) = .ok i [] := by
  obtain rfl | rfl | ⟨x, rfl⟩ | ⟨x, rfl⟩ := h
  · rfl
  · rfl
  · cases x <;> rfl
  · cases x <;> rfl

/-! ### The length of an instruction (R161) -/

theorem immLength_le (op : Byte) : immLength op ≤ 2 := by
  unfold immLength
  split_ifs <;> decide

theorem edLength_le (op2 : Byte) : edLength op2 ≤ 4 := by
  unfold edLength
  split_ifs <;> decide

/-- No opcode with a displacement has a word operand. -/
theorem indexedLength_le (op : Byte) : indexedLength op ≤ 4 := by
  have hclass1 : ∀ op ∈ class1Bytes, immLength op ≤ 1 := by decide
  unfold indexedLength
  split
  · next h =>
    have himm := hclass1 op (by simpa using h)
    omega
  · have himm := immLength_le op
    omega

/-- The bytes that tell the length stand at the head of the list. -/
theorem lengthAfter_append {bs : List Byte} {p : Bool} {n : Nat} (h : lengthAfter p bs = some n) (more : List Byte) :
    lengthAfter p (bs ++ more) = some n := by
  induction bs generalizing p n with
  | nil => cases h
  | cons op t ih =>
    rw [lengthAfter] at h
    rw [List.cons_append, lengthAfter]
    by_cases hx : op = 0xDD ∨ op = 0xFD
    · rw [if_pos hx] at h ⊢
      obtain ⟨m, hm, rfl⟩ := Option.map_eq_some_iff.1 h
      rw [ih hm]
      rfl
    · rw [if_neg hx] at h ⊢
      cases t with
      | cons op2 t => exact h
      | nil =>
        -- 0xED alone does not tell the length
        by_cases hed : op = 0xED
        · subst hed
          cases h
        · simpa only [hed, if_false] using h

theorem lengthAfter_main {op : Byte} (h : op ∉ prefixBytes) (p : Bool) (t : List Byte) :
    lengthAfter p (op :: t) = some (1 + immLength op + if p && class1Bytes.contains op then 1 else 0) := by
  simp only [prefixBytes, List.mem_cons, List.not_mem_nil, or_false, not_or] at h
  obtain ⟨hdd, hfd, hcb, hed⟩ := h
  simp only [lengthAfter, hdd, hfd, hcb, hed, or_false, if_false]

theorem instrLength_indexed {op : Byte} (h : ignoresPrefix op = false) (hcb : op ≠ 0xCB) (x : IndexReg)
    (t : List Byte) : instrLength (x.byte :: op :: t) = some (indexedLength op) := by
  obtain ⟨-, hed, hx⟩ := ignoresPrefix_eq_false.1 h
  rw [instrLength, lengthAfter_prefixed, lengthAfter_main (not_mem_prefixBytes.2 ⟨hx, hcb, hed⟩), Option.map_some,
    Bool.true_and, indexedLength]
  congr 1
  omega

theorem instrLength_of_ignoresPrefix {op : Byte} (h : ignoresPrefix op = true) (x : IndexReg) (t : List Byte) :
    instrLength (x.byte :: op :: t) = (instrLength (op :: t)).map (· + 1) := by
  rw [instrLength, lengthAfter_prefixed, lengthAfter_of_ignoresPrefix h]

/-- After a row of index prefixes, an opcode and three more bytes hold a whole instruction. -/
theorem lengthAfter_row (ps : List IndexReg) {op : Byte} (h : op ∉ [(0xDD : Byte), 0xFD]) (b1 b2 b3 : Byte)
    (rest : List Byte) (p : Bool) :
    ∃ n, lengthAfter p (ps.map IndexReg.byte ++ op :: b1 :: b2 :: b3 :: rest) = some n ∧ n ≤ ps.length + 4 := by
  induction ps generalizing p with
  | nil =>
    simp only [List.mem_cons, List.not_mem_nil, or_false] at h
    rw [List.map_nil, List.nil_append, lengthAfter, if_neg h]
    have himm := immLength_le op
    split
    · exact ⟨_, rfl, by split_ifs <;> simp⟩
    · split
      · exact ⟨edLength b1, rfl, edLength_le b1⟩
      · exact ⟨_, rfl, by simp only [List.length_nil]; split_ifs <;> omega⟩
  | cons x ps ih =>
    obtain ⟨n, hn, hle⟩ := ih true
    refine ⟨n + 1, ?_, by simp only [List.length_cons]; omega⟩
    rw [List.map_cons, List.cons_append, lengthAfter_prefixed, hn, Option.map_some]

/-! ### The ignored and replaced index prefixes (R154, R160) -/

theorem skipPrefixes_cons {op : Byte} (h : ignoresPrefix op = true) (x : IndexReg) (t : List Byte) :
    skipPrefixes (x.byte :: op :: t) = (x :: (skipPrefixes (op :: t)).1, (skipPrefixes (op :: t)).2) := by
  rw [skipPrefixes]
  simp [IndexReg.ofByte_byte, h]

/-- A list begins with an index prefix that the byte after it ignores or replaces, or no prefix is skipped. -/
theorem skipPrefixes_induction {P : List Byte → Prop}
    (skip : ∀ (x : IndexReg) op t, ignoresPrefix op = true → P (op :: t) → P (x.byte :: op :: t))
    (stop : ∀ bs, skipPrefixes bs = ([], bs) → P bs) (bs : List Byte) : P bs := by
  induction bs with
  | nil => exact stop [] rfl
  | cons b t ih =>
    by_cases h : ∃ x op t', b = IndexReg.byte x ∧ t = op :: t' ∧ ignoresPrefix op = true
    · obtain ⟨x, op, t', rfl, rfl, hop⟩ := h
      exact skip x op t' hop ih
    · refine stop _ ?_
      rw [skipPrefixes]
      split
      · rfl
      · next x hx =>
        refine if_neg fun hany => h ?_
        obtain _ | ⟨op, t'⟩ := t
        · cases hany
        · exact ⟨x, op, t', IndexReg.byte_of_ofByte hx, rfl, hany⟩

theorem skipPrefixes_nil_inv {bs tail : List Byte} (h : skipPrefixes bs = ([], tail)) : tail = bs := by
  induction bs using skipPrefixes_induction with
  | skip x op t hop _ => rw [skipPrefixes_cons hop] at h; cases h
  | stop bs hstop => rw [hstop] at h; cases h; rfl

theorem skipPrefixes_cons_inv {bs tail : List Byte} {x : IndexReg} {ps : List IndexReg}
    (h : skipPrefixes bs = (x :: ps, tail)) :
    ∃ op t, bs = x.byte :: op :: t ∧ ignoresPrefix op = true ∧ skipPrefixes (op :: t) = (ps, tail) := by
  induction bs using skipPrefixes_induction with
  | skip y op t hop _ =>
    rw [skipPrefixes_cons hop] at h
    cases h
    exact ⟨op, t, rfl, hop, rfl⟩
  | stop bs hstop => rw [hstop] at h; cases h

/-- Where no prefix is skipped, the length is that of the encoding. -/
theorem encode_decodeWhole_length {bs : List Byte} {n : Nat} (hstop : skipPrefixes bs = ([], bs))
    (hn : instrLength bs = some n) (hle : n ≤ bs.length) : (encode (decodeWhole bs)).length = n := by
  cases bs using bytes_cases with
  | nil => cases hn
  | main op t h =>
    rw [instrLength, lengthAfter_main h] at hn
    rw [decodeWhole_main h, (decodeMain_readFrom ..).encode_eq, ← Option.some.inj hn]
    exact List.length_take_of_le (Nat.add_le_add_left (immLength_le op) 1)
  | loneCB => cases hn; simp at hle
  | CB op2 t =>
    rw [decodeWhole_CB, (decodeCB_readFrom ..).encode_eq]
    exact Option.some.inj hn
  | loneED => cases hn
  | ED op2 t =>
    rw [decodeWhole_ED, (decodeED_readFrom ..).encode_eq, ← Option.some.inj hn]
    exact List.length_take_of_le (edLength_le op2)
  | loneIndex x => cases x <;> cases hn
  | loneXYCB x => cases x <;> cases hn <;> simp at hle
  | XYCB x d t =>
    rw [instrLength, lengthAfter_prefixed] at hn
    rw [decodeWhole_XYCB, (decodeXYCB_readFrom ..).encode_eq]
    exact Option.some.inj hn
  | indexed x op t hcb =>
    have h : ignoresPrefix op = false := by
      by_contra h
      rw [skipPrefixes_cons (Bool.eq_true_of_not_eq_false h)] at hstop
      cases hstop
    obtain ⟨j, hj, hr⟩ := decodeIndexed_readFrom h hcb x (t.getD 0 0) (t.getD 1 0)
    rw [instrLength_indexed h hcb] at hn
    rw [decodeWhole_indexed x hcb, hj, Option.getD_some, hr.encode_eq, ← Option.some.inj hn]
    exact List.length_take_of_le (indexedLength_le op)

theorem decodeWithPrefixes_eq_some {bs : List Byte} {ps : List IndexReg} {i : Instr} {rest : List Byte}
    (h : decodeWithPrefixes bs = some (ps, i, rest)) :
    ∃ n tail, instrLength bs = some n ∧ n ≤ bs.length ∧ skipPrefixes bs = (ps, tail) ∧ i = decodeWhole tail ∧
      rest = bs.drop n := by
  unfold decodeWithPrefixes at h
  split at h
  · cases h
  · next n hn =>
    split_ifs at h with hle
    cases h
    exact ⟨n, _, hn, hle, rfl, rfl, rfl⟩

/-- The length counts the skipped prefixes and the encoding of the instruction after them, and these are the bytes. -/
theorem instrLength_sound {ps : List IndexReg} {bs tail : List Byte} {n : Nat} (hskip : skipPrefixes bs = (ps, tail))
    (hn : instrLength bs = some n) (hle : n ≤ bs.length) :
    n = ps.length + (encode (decodeWhole tail)).length ∧
      ps.map IndexReg.byte ++ encode (decodeWhole tail) <+: bs := by
  induction ps generalizing bs n with
  | nil =>
    obtain rfl := skipPrefixes_nil_inv hskip
    have hlen := encode_decodeWhole_length hskip hn hle
    have hne : tail ≠ [] := by
      rintro rfl
      cases hn
    exact ⟨by rw [hlen, List.length_nil, Nat.zero_add], encode_decodeWhole_prefix hne (hlen.trans_le hle)⟩
  | cons x ps ih =>
    obtain ⟨op, t, rfl, hop, hskip'⟩ := skipPrefixes_cons_inv hskip
    rw [instrLength_of_ignoresPrefix hop] at hn
    obtain ⟨m, hm, rfl⟩ := Option.map_eq_some_iff.1 hn
    obtain ⟨hlen, hprefix⟩ := ih hskip' hm (Nat.le_of_succ_le_succ hle)
    refine ⟨?_, (List.prefix_cons_inj x.byte).2 hprefix⟩
    rw [hlen, List.length_cons]
    omega

end Sys2Proof
end

section
/-! PROOFS. The family of 30_encoding.md, the dispatcher: what is read at PC after an index prefix and without one (R153
to R155, R160), that a step runs what is read, and what the bytes that select a map leave in `prefix`. -/

namespace Sys2Proof.Machine

open Spec

/-! ### What is read at PC -/

theorem decodeAt_of_ne_index {op : Byte} (h : IndexReg.ofByte op = none) (b1 b2 b3 : Byte) (t : List Byte) :
    decodeAt none op b1 b2 b3 = decodeWhole (op :: b1 :: b2 :: b3 :: t) ∧
      ownIndex (decodeWhole (op :: b1 :: b2 :: b3 :: t)) = none := by
  by_cases hcb : op = 0xCB
  · subst hcb
    rw [decodeWhole_CB]
    exact ⟨rfl, (decodeCB_readFrom b1).ownIndex_eq⟩
  by_cases hed : op = 0xED
  · subst hed
    rw [decodeWhole_ED]
    exact ⟨rfl, (decodeED_readFrom b1 b2 b3).ownIndex_eq⟩
  have hmain : op ∉ prefixBytes := not_mem_prefixBytes.2 ⟨h, hcb, hed⟩
  rw [decodeAt_main hmain, decodeWhole_main hmain]
  exact ⟨rfl, (decodeMain_readFrom op b1 b2).ownIndex_eq⟩

theorem decodeAt_index_byte (ctx : Option IndexReg) (x : IndexReg) (b1 b2 b3 : Byte) :
    decodeAt ctx x.byte b1 b2 b3 = decodePrefix x b1 := by
  simp only [decodeAt, IndexReg.ofByte_byte]

/-- After the index prefix `x`, an opcode that uses it is read as `x` and the opcode are at a boundary. -/
theorem decodeAt_after_index {op : Byte} (h : ignoresPrefix op = false) (x : IndexReg) (b1 b2 b3 : Byte)
    (t : List Byte) : decodeAt (some x) op b1 b2 b3 = decodeWhole (x.byte :: op :: b1 :: b2 :: t) ∧
      ownIndex (decodeWhole (x.byte :: op :: b1 :: b2 :: t)) = some x := by
  obtain ⟨-, hed, hx⟩ := ignoresPrefix_eq_false.1 h
  by_cases hcb : op = 0xCB
  · subst hcb
    rw [decodeWhole_XYCB_cons]
    exact ⟨rfl, (decodeXYCB_readFrom x b1 b2).ownIndex_eq⟩
  · obtain ⟨j, hj, hr⟩ := decodeIndexed_readFrom h hcb x b1 b2
    rw [decodeWhole_indexed x hcb, List.getD_cons_zero, List.getD_cons_succ, List.getD_cons_zero, hj]
    simp only [decodeAt, hx, hcb, hed, if_false, hj, Option.getD_some, hr.ownIndex_eq, and_self]

theorem decodeAt_of_ignoresPrefix {op : Byte} (h : ignoresPrefix op = true) (ctx : Option IndexReg)
    (b1 b2 b3 : Byte) : decodeAt ctx op b1 b2 b3 = decodeAt none op b1 b2 b3 := by
  cases ctx with
  | none => rfl
  | some x =>
    simp only [decodeAt, ne_CB_of_ignoresPrefix h, if_false, decodeIndexed_of_ignoresPrefix h, Option.getD_none]

theorem State.takePrefix_nextInstr (s : State) (x : IndexReg) :
    (s.takePrefix x).nextInstr = decodeAt (some x) (s.readByte (s.pc + 1)) (s.readByte (s.pc + 2))
      (s.readByte (s.pc + 3)) (s.readByte (s.pc + 4)) := by
  simp [State.nextInstr, BitVec.add_assoc]

/-! ### What a step runs -/

/-- Whatever name the byte after it gives an index prefix, its effect is the same (R153). -/
theorem exec_decodePrefix (x : IndexReg) (op : Byte) (s : State) :
    exec (decodePrefix x op) s = .next (s.takePrefix x) := by
  unfold decodePrefix
  split
  · rfl
  · split_ifs <;> rfl

theorem runsFrom_of_ownIndex_none {s : State} {i : Instr} (hown : ownIndex i = none)
    (h : ∀ u, exec i s = .next u → step s = .next u.finish) : RunsFrom s i :=
  ⟨fun _ => h, fun _ hx => (nomatch hown.symm.trans hx)⟩

theorem runsFrom_of_ownIndex_some {s : State} {i : Instr} {x : IndexReg} (hown : ownIndex i = some x)
    (hprefix : step s = .next (s.takePrefix x))
    (h : ∀ u, exec i (s.takePrefix x) = .next u → step (s.takePrefix x) = .next u.finish) : RunsFrom s i := by
  refine ⟨fun hnone => (nomatch hnone.symm.trans hown), fun y hy => ?_⟩
  obtain rfl : x = y := Option.some.inj (hown.symm.trans hy)
  exact ⟨hprefix, h⟩

/-- A core with no host action due that executes next, and reads the bytes at PC as it does at a boundary. -/
structure State.FetchesAfresh (s : State) : Prop where
  inbox : s.inbox = []
  run : s.run = .running
  halted : s.halted = false
  activity : s.activity = .execute
  nextInstr : s.nextInstr =
    decodeAt none (s.readByte s.pc) (s.readByte (s.pc + 1)) (s.readByte (s.pc + 2)) (s.readByte (s.pc + 3))

section

variable {s : State} (hinbox : s.inbox = []) (hrun : s.run = .running) (hhalted : s.halted = false)
include hinbox hrun hhalted

theorem State.fetchesAfresh_of_boundary (hpfx : s.pfx = none) (htrap : s.trapAt = none) : s.FetchesAfresh where
  inbox := hinbox
  run := hrun
  halted := hhalted
  activity := State.activity_of_no_trap hrun hhalted htrap
  nextInstr := by rw [State.nextInstr, hpfx]

theorem State.fetchesAfresh_of_ignoresPrefix {x : IndexReg} (hpfx : s.pfx = some x)
    (h : ignoresPrefix (s.readByte s.pc) = true) : s.FetchesAfresh where
  inbox := hinbox
  run := hrun
  halted := hhalted
  activity := State.activity_of_prefixed hrun hhalted hpfx
  nextInstr := by rw [State.nextInstr, decodeAt_of_ignoresPrefix h]

theorem step_of_prefixed {u : State} {x : IndexReg} (hpfx : s.pfx = some x) (h : exec s.nextInstr s = .next u) :
    step s = .next u.finish := step_execute hinbox (State.activity_of_prefixed hrun hhalted hpfx) h

end

theorem State.FetchesAfresh.step_prefix {s : State} (h : s.FetchesAfresh) {x : IndexReg}
    (hx : s.readByte s.pc = x.byte) : step s = .next (s.takePrefix x) := by
  have hexec : exec s.nextInstr s = .next (s.takePrefix x) := by
    rw [h.nextInstr, hx, decodeAt_index_byte, exec_decodePrefix]
  exact step_execute h.inbox h.activity hexec

/-- Such a core runs the instruction that the bytes at PC begin with. -/
theorem State.FetchesAfresh.runsFrom {s : State} (h : s.FetchesAfresh) (t : List Byte) :
    RunsFrom s (decodeWhole (s.readByte s.pc :: s.readByte (s.pc + 1) :: s.readByte (s.pc + 2) ::
      s.readByte (s.pc + 3) :: t)) := by
  have hstep (u : State) (hu : exec s.nextInstr s = .next u) : step s = .next u.finish :=
    step_execute h.inbox h.activity hu
  rw [h.nextInstr] at hstep
  obtain hx | ⟨x, hx⟩ := Option.eq_none_or_eq_some (IndexReg.ofByte (s.readByte s.pc))
  · obtain ⟨hat, hown⟩ := decodeAt_of_ne_index hx (s.readByte (s.pc + 1)) (s.readByte (s.pc + 2))
      (s.readByte (s.pc + 3)) t
    rw [hat] at hstep
    exact runsFrom_of_ownIndex_none hown hstep
  have hbyte := IndexReg.byte_of_ofByte hx
  by_cases hop : ignoresPrefix (s.readByte (s.pc + 1)) = true
  · rw [hbyte, decodeAt_index_byte] at hstep
    rw [hbyte, decodeWhole_of_ignoresPrefix hop]
    exact runsFrom_of_ownIndex_none (decodePrefix_readFrom hop x).ownIndex_eq hstep
  · obtain ⟨hat, hown⟩ := decodeAt_after_index (Bool.eq_false_of_not_eq_true hop) x (s.readByte (s.pc + 2))
      (s.readByte (s.pc + 3)) (s.readByte (s.pc + 4)) t
    rw [hbyte]
    refine runsFrom_of_ownIndex_some hown (h.step_prefix hbyte) fun u hu => ?_
    rw [← hat, ← State.takePrefix_nextInstr] at hu
    exact step_of_prefixed (s := s.takePrefix x) h.inbox h.run h.halted rfl hu

/-! ### Rows of index prefixes -/

theorem bytesAtPC_succ (s : State) (x : IndexReg) (n : Nat) :
    bytesAtPC s (n + 1) = s.readByte s.pc :: bytesAtPC (s.takePrefix x) n := by
  have hk (k : Nat) : s.pc + BitVec.ofNat 16 (k + 1) = s.pc + 1 + BitVec.ofNat 16 k := by
    rw [Nat.add_comm, BitVec.ofNat_add, ← BitVec.add_assoc]
    rfl
  simp only [bytesAtPC, List.range_succ_eq_map, List.map_cons, List.map_map, Function.comp_def, Nat.succ_eq_add_one,
    hk, State.takePrefix_readByte, State.takePrefix_pc, BitVec.add_zero]

theorem bytesAtPC_add_four (s : State) (n : Nat) : ∃ t, bytesAtPC s (n + 4) =
    s.readByte s.pc :: s.readByte (s.pc + 1) :: s.readByte (s.pc + 2) :: s.readByte (s.pc + 3) :: t := by
  refine ⟨bytesAtPC ((((s.takePrefix .ix).takePrefix .ix).takePrefix .ix).takePrefix .ix) n, ?_⟩
  iterate 4 rw [bytesAtPC_succ _ .ix]
  simp [BitVec.add_assoc]

/-- One step for each skipped prefix, and then the instruction after them (R154, R161). -/
theorem State.FetchesAfresh.reaches_runsFrom {ps : List IndexReg} {tail : List Byte} {s : State} {n : Nat}
    (h : s.FetchesAfresh) (hskip : skipPrefixes (bytesAtPC s (n + 4)) = (ps, tail)) (hn : ps.length ≤ n) :
    Reaches ps.length s (ps.foldl (fun t x => t.takePrefix x) s) ∧
      RunsFrom (ps.foldl (fun t x => t.takePrefix x) s) (decodeWhole tail) := by
  induction ps generalizing s n with
  | nil =>
    obtain ⟨t, ht⟩ := bytesAtPC_add_four s n
    rw [skipPrefixes_nil_inv hskip, ht]
    exact ⟨rfl, h.runsFrom t⟩
  | cons x ps ih =>
    obtain ⟨m, rfl⟩ := Nat.exists_eq_add_one.2 (Nat.zero_lt_of_lt hn)
    obtain ⟨op, t, hbs, hop, hskip'⟩ := skipPrefixes_cons_inv hskip
    rw [Nat.add_right_comm, bytesAtPC_succ s x] at hbs
    obtain ⟨hx, htail⟩ := List.cons.inj hbs
    have hop' : (s.takePrefix x).readByte (s.takePrefix x).pc = op := by
      rw [bytesAtPC_succ _ .ix] at htail
      exact (List.cons.inj htail).1
    have hfresh : (s.takePrefix x).FetchesAfresh :=
      State.fetchesAfresh_of_ignoresPrefix h.inbox h.run h.halted rfl (hop' ▸ hop)
    obtain ⟨hreaches, hruns⟩ := ih hfresh (htail ▸ hskip') (Nat.le_of_succ_le_succ hn)
    exact ⟨⟨_, h.step_prefix hx, hreaches⟩, hruns⟩

/-! ### The bytes that select a map -/

@[simp] theorem State.loadSpecial_pfx (s : State) (v : Byte) : (s.loadSpecial v).pfx = s.pfx := rfl

/-- An instruction that begins with no index prefix but its own ends the dispatch step: it leaves `prefix` None. -/
theorem exec_pfx_of_ne (i : Instr) (s : State) (hcb : i ≠ .prefixCB) (hed : i ≠ .prefixED)
    (hx : ∀ x : IndexReg, (encode i).head? = some x.byte → ownIndex i = some x) :
    Answers (fun u => u.pfx = none) (exec i s) := by
  cases i
  case prefixCB => exact absurd rfl hcb
  case prefixED => exact absurd rfl hed
  case prefixIndex x | prefixCBAfterIndex x | prefixEDAfterIndex x => cases hx x rfl
  case prefixRestart x _ | ignoredIndexPrefix x _ => cases hx x rfl
  case jpCond | jrCond | djnz | callCond | retCond => exact .of_ite (by simp) (by simp)
  all_goals exact .of_next (by simp)

theorem exec_pfx_of_readFrom {own : Option IndexReg} {op op2 : Byte} {t : List Byte} {i : Instr}
    (h : ReadFrom own (op :: op2 :: t) i) (hop : IndexReg.ofByte op = own) (s : State) :
    Answers (fun u => u.pfx = none) (exec i s) := by
  have hlen : 2 ≤ (encode i).length := by simp [h.encode_eq]
  refine exec_pfx_of_ne i s (ne_of_encode_length hlen rfl) (ne_of_encode_length hlen rfl) fun x hx => ?_
  rw [h.encode_eq] at hx
  rw [h.ownIndex_eq, ← hop, Option.some.inj hx, IndexReg.ofByte_byte]

theorem exec_decodeED_pfx (op2 lo hi : Byte) (s : State) :
    Answers (fun u => u.pfx = none) (exec (decodeED op2 lo hi) s) := by
  have hr := decodeED_readFrom op2 lo hi
  unfold edLength at hr
  split at hr <;> exact exec_pfx_of_readFrom hr rfl s

theorem exec_prefixCB_of_none {s : State} (h : s.pfx = none) :
    exec .prefixCB s = exec (decodeCB (s.readByte (s.pc + 1))) s := by
  rw [← cbTable_eq_exec, show exec .prefixCB s = execPrefixCB s from rfl, execPrefixCB, h]

theorem exec_prefixCB_of_some {s : State} {x : IndexReg} (h : s.pfx = some x) :
    exec .prefixCB s = exec (decodeXYCB x (s.readByte (s.pc + 1)) (s.readByte (s.pc + 2))) s := by
  rw [← xycbTable_eq_exec, show exec .prefixCB s = execPrefixCB s from rfl, execPrefixCB, h]

theorem exec_prefixCB_pfx (s : State) : Answers (fun u => u.pfx = none) (exec .prefixCB s) := by
  obtain hpfx | ⟨x, hpfx⟩ := Option.eq_none_or_eq_some s.pfx
  · rw [exec_prefixCB_of_none hpfx]
    exact exec_pfx_of_readFrom (decodeCB_readFrom _) rfl s
  · rw [exec_prefixCB_of_some hpfx]
    exact exec_pfx_of_readFrom (decodeXYCB_readFrom x _ _) (IndexReg.ofByte_byte x) s

theorem exec_prefixED (s : State) : exec .prefixED s =
    exec (decodeED (s.readByte (s.pc + 1)) (s.readByte (s.pc + 2)) (s.readByte (s.pc + 3))) s := edTable_eq_exec ..

end Sys2Proof.Machine

namespace Sys2Proof.Proofs

open Sys2Proof.Machine Sys2Proof.Spec

/-- Settles O1: an encoding is read back whatever follows it, but for a prefix byte that is the whole list. -/
theorem encodeThenDecode : Obligations.EncodeThenDecode := by
  intro i hwf
  refine ⟨?_, fun ⟨hCB, hED, hIndex, hXYCB⟩ => decode_encode_append hwf ?_⟩
  · by_cases hlone : i.IsLonePrefix
    · exact decode_encode_of_isLonePrefix hlone
    · simpa using decode_encode_append hwf hlone []
  · rintro (h | h | ⟨x, h⟩ | ⟨x, h⟩)
    exacts [hCB h, hED h, hIndex x h, hXYCB x h]

/-- Settles O2: map by map, what is decoded is encoded by the bytes it was read from. -/
theorem decodedIsItsEncoding : Obligations.DecodedIsItsEncoding := by
  intro bs i rest h
  obtain ⟨hne, rfl, hlen, rfl⟩ := decode_eq_ok_iff.1 h
  exact ⟨(decodeWhole_sound hne).1, List.prefix_append_drop (encode_decodeWhole_prefix hne hlen)⟩

/-- Settles O3: no encoding is longer than four bytes, so the list does not end inside the instruction it begins. -/
theorem everyByteSequenceDecodes : Obligations.EveryByteSequenceDecodes := by
  intro bs hbs
  have hlen := encode_length_le (decodeWhole bs)
  have hne : bs ≠ [] := List.ne_nil_of_length_pos (Nat.zero_lt_of_lt hbs)
  exact ⟨_, _, encode_length_pos _, hlen, decode_eq_ok_iff.2 ⟨hne, rfl, hlen.trans hbs, rfl⟩⟩

/-- Settles O60: a skipped prefix counts for one byte and is one step, after which the core fetches afresh. -/
theorem lengthCountsEveryPrefix : Obligations.LengthCountsEveryPrefix := by
  refine ⟨fun bs more n h => lengthAfter_append h more, fun bs ps i rest h => ?_, fun ps op b1 b2 b3 rest hop => ?_,
    fun s n ps i rest hinbox hrun hhalted hpfx htrap h hps => ?_⟩
  · obtain ⟨n, tail, hn, hle, hskip, rfl, rfl⟩ := decodeWithPrefixes_eq_some h
    obtain ⟨rfl, hprefix⟩ := instrLength_sound hskip hn hle
    exact ⟨hn, by simpa using List.prefix_append_drop hprefix⟩
  · obtain ⟨n, hn, hle⟩ := lengthAfter_row ps hop b1 b2 b3 rest false
    have hlen : n ≤ (ps.map IndexReg.byte ++ op :: b1 :: b2 :: b3 :: rest).length := hle.trans (by simp)
    rw [decodeWithPrefixes, instrLength, hn]
    exact ⟨_, if_pos hlen⟩
  · obtain ⟨_, tail, -, -, hskip, rfl, -⟩ := decodeWithPrefixes_eq_some h
    exact (State.fetchesAfresh_of_boundary hinbox hrun hhalted hpfx htrap).reaches_runsFrom hskip hps

/-- Settles O4: each of the twelve words is looked up in its map. -/
theorem sampleWordsDecode : Obligations.SampleWordsDecode :=
  ⟨rfl, rfl, rfl, rfl, rfl, rfl, rfl, rfl, rfl, rfl, rfl, rfl⟩

/-- Settles O5: at a boundary, and where the byte at PC ignores or replaces the prefix, the core fetches afresh; else it
reads the rest of the instruction whose prefix was taken. -/
theorem stepRunsDecoded : Obligations.StepRunsDecoded := by
  rintro s i _ rest hinbox hrun hhalted rfl
  refine ⟨fun hpfx htrap h => ?_, fun x hpfx h hown u hu => ?_, fun x hpfx hop h => ?_⟩
  all_goals obtain ⟨-, rfl, -⟩ := decode_eq_ok_iff.1 h
  · exact (State.fetchesAfresh_of_boundary hinbox hrun hhalted hpfx htrap).runsFrom []
  · have hop : ignoresPrefix (s.readByte s.pc) = false := by
      by_contra hop
      rw [Bool.not_eq_false] at hop
      rw [decodeWhole_of_ignoresPrefix hop, (decodePrefix_readFrom hop x).ownIndex_eq] at hown
      cases hown
    refine step_of_prefixed hinbox hrun hhalted hpfx ?_
    rw [State.nextInstr, hpfx, (decodeAt_after_index hop x _ _ _ _).1]
    exact hu
  · have hop : ignoresPrefix (s.readByte s.pc) = true := by
      simp only [List.mem_cons, List.not_mem_nil, or_false] at hop
      obtain h4 | h | h | h := hop
      · exact ignoresPrefix_of_class4 h4
      all_goals rw [h]; rfl
    exact (State.fetchesAfresh_of_ignoresPrefix hinbox hrun hhalted hpfx hop).runsFrom []

/-- Settles O19: sign extension keeps the displacement as an integer, and the sum wraps. -/
theorem indexedAddressWraps : Obligations.IndexedAddressWraps := by
  intro s x d
  have hd : (sext16 d).toInt = d.toInt := BitVec.toInt_signExtend_of_le (by decide)
  rw [State.ea, BitVec.toNat_add]
  rw [BitVec.toInt_eq_toNat_cond] at hd
  split at hd <;> omega

/-- Settles O49: the five names of an index prefix byte have one meaning, `State.takePrefix`. -/
theorem indexPrefixBytes : Obligations.IndexPrefixBytes := by
  intro s x y w i hi
  simp only [List.mem_cons, List.not_mem_nil, or_false] at hi
  have hexec : exec i s = .next (s.takePrefix x) := by obtain rfl | rfl | rfl | rfl | rfl := hi <;> rfl
  exact ⟨_, hexec, rfl, rfl, rfl, rfl, rfl⟩

/-- Settles O50: the table of a map runs what the map decodes to, and that begins with no index prefix but its own. -/
theorem mapSelectingBytes : Obligations.MapSelectingBytes := by
  refine ⟨fun s => exec_prefixCB_of_none, fun s x => exec_prefixCB_of_some, exec_prefixED, fun s => ?_⟩
  obtain ⟨u, hu, hu'⟩ := exec_prefixCB_pfx s
  obtain ⟨v, hv, hv'⟩ := exec_decodeED_pfx _ _ _ s
  exact ⟨u, v, hu, hu', (exec_prefixED s).trans hv, hv'⟩

end Sys2Proof.Proofs
end

section
/-! PROOFS. The family of 41_load8.md, the 8-bit loads: a register, a memory byte or a half of an index register takes
the value, the cost is that of the fetches with an own index prefix counted in (R153), and nothing else changes. -/

namespace Sys2Proof.Machine

open Spec

/-! ### The state an effect starts from -/

/-- `s` after the fetches of an instruction of `len` bytes, `m1` opcode fetches and `cost` T-states with the index
prefix `own`: the state its effect starts from. What a taken prefix has added already is not added again
(R153); without a prefix this is `State.fetched` by definition. -/
def State.afterFetches (s : State) (own : Option IndexReg) (len : Word) (m1 : Byte) (cost : Count) : State :=
  { s with
    pc := s.after own len
    r := if s.hasTaken own then s.r + (m1 - 1) else s.r + m1
    tstates := if s.hasTaken own then s.tstates + (cost - 4) else s.tstates + cost
    pfx := none }

/-- An own prefix adds 1, 1 and 4 to the bytes, fetches and T-states after it, whether it is taken now or was before. -/
theorem State.fetched_ownPrefix (s : State) (x : IndexReg) (len : Word) (m1 : Byte) (cost : Count) :
    (s.ownPrefix x).fetched len m1 cost = s.afterFetches (some x) (1 + len) (1 + m1) (4 + cost) := by
  by_cases h : s.pfx = some x
  · rw [State.ownPrefix_of_taken h]
    simp [State.afterFetches, State.fetched, State.after, State.hasTaken, h]
  · rw [State.ownPrefix_of_not_taken h]
    simp [State.afterFetches, State.fetched, State.takePrefix, State.after, State.hasTaken, h, BitVec.add_assoc]

/-- `hrun` says which `exec…` of the model the instruction runs, and `hu` what the effect of that one is. -/
theorem exec_of_runXY {i : Instr} {x : IndexReg} {len : Word} {m1 : Byte} {cost : Count} {f : State → State}
    {s u : State} (hrun : exec i s = runXY x len m1 cost f s)
    (hu : f (s.afterFetches (some x) (1 + len) (1 + m1) (4 + cost)) = u) : exec i s = .next u := by
  rw [hrun, runXY, State.fetched_ownPrefix, hu]

/-- From `t` to `u` the fields that the fetches account for are kept. -/
structure KeepsFetches (t u : State) : Prop where
  pc : u.pc = t.pc
  r : u.r = t.r
  tstates : u.tstates = t.tstates
  pfx : u.pfx = t.pfx

section

variable {i : Instr} {s : State} {len : Word} {m1 : Byte} {cost : Count}

/-- An instruction completes at the cost of its fetches when its effect keeps what they account for. -/
theorem completes_of_keepsFetches {u : State} {post : State → Prop} (hexec : exec i s = .next u)
    (hkeeps : KeepsFetches (s.afterFetches (ownIndex i) len m1 cost) u) (hpost : post u) :
    Completes i s len m1 cost post :=
  ⟨u, hexec, hkeeps.pc, ⟨hkeeps.r, hkeeps.tstates, hkeeps.pfx⟩, hpost⟩

/-! ### A register -/

theorem completes_setReg {r : Reg8} {v : Byte}
    (hexec : exec i s = .next ((s.afterFetches (ownIndex i) len m1 cost).setReg r v)) :
    Completes i s len m1 cost fun u => u.reg r = v ∧ OnlyReg s u r := by
  refine completes_of_keepsFetches hexec ⟨rfl, rfl, rfl, rfl⟩ ⟨?_, fun q hq => ?_, ?_, rfl⟩
  · rw [State.reg_setReg, if_pos rfl]
  · rw [State.reg_setReg, if_neg hq]
    rfl
  · exact RegSet.set_f s.main r v

/-! ### A byte of memory -/

theorem State.writeByte_frame (s : State) (a : Word) (v : Byte) : { s.writeByte a v with mem := s.mem } = s :=
  State.stores_frame [(a, v)] s

theorem completes_writeByte {a : Word} {v : Byte}
    (hexec : exec i s = .next ((s.afterFetches (ownIndex i) len m1 cost).writeByte a v)) :
    Completes i s len m1 cost fun u => Stored s u a v ∧ OnlyMem s u := by
  refine completes_of_keepsFetches hexec ⟨by simp, by simp, by simp, by simp⟩ ⟨State.stored_writeByte _ a v, ?_⟩
  exact congrArg s.unfetched (State.writeByte_frame (s.afterFetches (ownIndex i) len m1 cost) a v)

/-! ### A half of an index register -/

theorem State.half_setHalf (s : State) (x : IndexReg) (h k : Half) (v : Byte) :
    (s.setHalf x h v).half x k = if k = h then v else s.half x k := by
  cases h <;> cases k <;> simp [State.setHalf, State.half, State.xy_setXY, hiByte_join, loByte_join]

theorem State.setHalf_onlyXY (s : State) (x : IndexReg) (h : Half) (v : Byte) : OnlyXY s (s.setHalf x h v) x := by
  refine ⟨fun y hy => ?_, ?_⟩
  · cases x <;> cases y <;> cases h <;> trivial
  · cases x <;> cases h <;> rfl

theorem State.regOrHalf_eq (s : State) (x : IndexReg) (q : Reg8) :
    s.regOrHalf x q = if q = .h then s.half x .high else if q = .l then s.half x .low else s.reg q := by
  cases q <;> rfl

theorem completes_setHalf {x : IndexReg} {h : Half} {v : Byte}
    (hexec : exec i s = .next ((s.afterFetches (ownIndex i) len m1 cost).setHalf x h v)) :
    Completes i s len m1 cost fun u =>
      u.half x h = v ∧ (∀ k, k ≠ h → u.half x k = s.half x k) ∧ OnlyXY s u x := by
  refine completes_of_keepsFetches hexec ⟨by simp, by simp, by simp, by simp⟩ ⟨?_, fun k hk => ?_, ?_⟩
  · rw [State.half_setHalf, if_pos rfl]
  · rw [State.half_setHalf, if_neg hk]
    rfl
  · obtain ⟨hxy, hframe⟩ := (s.afterFetches (ownIndex i) len m1 cost).setHalf_onlyXY x h v
    exact ⟨hxy, congrArg s.unfetched hframe⟩

/-! ### The special registers -/

theorem signZero_setSZ (f : Flags) (v : Byte) : SignZero v (f.setSZ v) := by
  refine ⟨?_, beq_iff_eq⟩
  rw [show (f.setSZ v).s = v.msb from rfl, BitVec.msb_eq_decide, decide_eq_true_eq]

theorem completes_loadSpecial {v : Byte}
    (hexec : exec i s = .next ((s.afterFetches (ownIndex i) len m1 cost).loadSpecial v)) :
    Completes i s len m1 cost fun u =>
      u.reg .a = v ∧ SignZero v u.main.f ∧ u.main.f.h = false ∧ u.main.f.pv = s.iff2 ∧ u.main.f.n = false ∧
        u.main.f.c = s.main.f.c ∧ OnlyRegAndFlags s u .a := by
  refine completes_of_keepsFetches hexec ⟨rfl, rfl, rfl, rfl⟩
    ⟨rfl, signZero_setSZ s.main.f v, rfl, rfl, rfl, rfl, fun q hq => ?_, rfl⟩
  cases q <;> trivial

end

end Sys2Proof.Machine

namespace Sys2Proof.Proofs

open Sys2Proof.Machine

/-- Settles O17: each load is `State.setReg` after its fetches, with a value that the fetches leave as it was. -/
theorem byteLoadsIntoRegisters : Obligations.ByteLoadsIntoRegisters :=
  ⟨fun _ _ _ => completes_setReg rfl,
    fun _ _ _ => completes_setReg rfl,
    fun _ _ => completes_setReg rfl,
    fun _ _ _ _ => completes_setReg (exec_of_runXY (Eq.refl (execLdRIndXY ..)) rfl),
    fun _ => completes_setReg rfl,
    fun _ => completes_setReg rfl,
    fun _ _ => completes_setReg rfl⟩

/-- Settles O18: each store is `State.writeByte` after its fetches. -/
theorem byteStoresFromRegisters : Obligations.ByteStoresFromRegisters :=
  ⟨fun _ _ => completes_writeByte rfl,
    fun _ _ _ _ => completes_writeByte (exec_of_runXY (Eq.refl (execLdIndXYR ..)) rfl),
    fun _ _ => completes_writeByte rfl,
    fun _ _ _ _ => completes_writeByte (exec_of_runXY (Eq.refl (execLdIndXYN ..)) rfl),
    fun _ => completes_writeByte rfl,
    fun _ => completes_writeByte rfl,
    fun _ _ => completes_writeByte rfl⟩

/-- Settles O20: a write to one half joins it with the other half, which is kept. -/
theorem indexHalfLoads : Obligations.IndexHalfLoads := by
  refine ⟨fun _ _ _ _ => completes_setReg (exec_of_runXY (Eq.refl (execLdRHalf ..)) rfl), fun s x h q => ?_,
    fun _ _ _ _ => completes_setHalf (exec_of_runXY (Eq.refl (execLdHalfN ..)) rfl)⟩
  rw [← State.regOrHalf_eq]
  exact completes_setHalf (exec_of_runXY (Eq.refl (execLdHalfR ..)) rfl)

/-- Settles O21: the loads of I and R share `State.loadSpecial`, and the fetches leave in R what LD A,R reads. -/
theorem specialRegisterLoads : Obligations.SpecialRegisterLoads := by
  refine ⟨fun _ => completes_loadSpecial rfl, fun _ => completes_loadSpecial rfl, fun s => ?_, fun s => ?_⟩
  · exact completes_of_keepsFetches rfl ⟨rfl, rfl, rfl, rfl⟩ ⟨rfl, rfl⟩
  · exact ⟨_, rfl, rfl, rfl, rfl, rfl, rfl⟩

end Sys2Proof.Proofs
end

section
/-! PROOFS. The family of 42_load16_stack.md, the 16-bit loads and the stack: a pair or an index register takes the
word, or memory takes it at two addresses (R109), a push and a pop move SP by 2 (R250), and nothing else changes. -/

namespace Sys2Proof.Machine

open Spec

/-! ### Index registers and stack pairs -/

theorem State.setXY_onlyXY (s : State) (x : IndexReg) (v : Word) : OnlyXY s (s.setXY x v) x := by
  refine ⟨fun y hy => ?_, ?_⟩
  · cases x <;> cases y <;> trivial
  · cases x <;> rfl

/-- AF takes the low byte as its flags, all eight bits of it (R253). -/
theorem State.stackPair_setStackPair (s : State) (q : StackPair) (v : Word) : (s.setStackPair q v).stackPair q = v := by
  cases q
  case af =>
    change join (hiByte v) (Flags.ofByte (loByte v)).toByte = v
    rw [Flags.toByte_ofByte, join_hi_lo]
  all_goals exact join_hi_lo v

theorem State.stackPair_setStackPair_of_ne (s : State) {q k : StackPair} (hk : k ≠ q) (v : Word) :
    (s.setStackPair q v).stackPair k = s.stackPair k := by
  cases q <;> cases k <;> trivial

theorem State.setStackPair_frame (s : State) (q : StackPair) (v : Word) :
    { s.setStackPair q v with main := s.main } = s := by
  cases q <;> rfl

/-! ### Word stores -/

theorem State.writeWord_frame (s : State) (a v : Word) : { s.writeWord a v with mem := s.mem } = s :=
  State.stores_frame [(a, loByte v), (a + 1, hiByte v)] s

theorem State.push16_frame (s : State) (v : Word) : { s.push16 v with mem := s.mem, sp := s.sp } = s :=
  congrArg (fun t : State => { t with sp := s.sp }) (State.writeWord_frame { s with sp := s.sp - 2 } (s.sp - 2) v)

/-! ### Instructions whose effect is one of these updates -/

section

variable {i : Instr} {s : State} {len : Word} {m1 : Byte} {cost : Count}

theorem completes_setPair {p : Pair} {v : Word}
    (hexec : exec i s = .next ((s.afterFetches (ownIndex i) len m1 cost).setPair p v)) :
    Completes i s len m1 cost fun u => u.pair p = v ∧ OnlyPair s u p := by
  refine completes_of_keepsFetches hexec ⟨by simp, by simp, by simp, by simp⟩ ⟨State.pair_setPair _ p v, ?_⟩
  obtain ⟨hpair, ha, hf, hframe⟩ := (s.afterFetches (ownIndex i) len m1 cost).setPair_onlyPair p v
  exact ⟨hpair, ha, hf, congrArg s.unfetched hframe⟩

theorem completes_setXY {x : IndexReg} {v : Word}
    (hexec : exec i s = .next ((s.afterFetches (ownIndex i) len m1 cost).setXY x v)) :
    Completes i s len m1 cost fun u => u.xy x = v ∧ OnlyXY s u x := by
  refine completes_of_keepsFetches hexec ⟨by simp, by simp, by simp, by simp⟩ ⟨State.xy_setXY _ x v, ?_⟩
  obtain ⟨hxy, hframe⟩ := (s.afterFetches (ownIndex i) len m1 cost).setXY_onlyXY x v
  exact ⟨hxy, congrArg s.unfetched hframe⟩

theorem completes_writeWord {a v : Word}
    (hexec : exec i s = .next ((s.afterFetches (ownIndex i) len m1 cost).writeWord a v)) :
    Completes i s len m1 cost fun u => StoredWord s u a v ∧ OnlyMem s u :=
  completes_of_keepsFetches hexec ⟨by simp, by simp, by simp, by simp⟩
    ⟨State.storedWord_writeWord _ a v, congrArg s.unfetched (State.writeWord_frame _ a v)⟩

theorem completes_push16 {v : Word}
    (hexec : exec i s = .next ((s.afterFetches (ownIndex i) len m1 cost).push16 v)) :
    Completes i s len m1 cost fun u =>
      StoredWord s u (s.sp - 2) v ∧ u.sp = s.sp - 2 ∧ { s.unfetched u with mem := s.mem, sp := s.sp } = s :=
  completes_of_keepsFetches hexec ⟨by simp, by simp, by simp, by simp⟩
    ⟨State.storedWord_push16 _ v, State.push16_sp _ v, congrArg s.unfetched (State.push16_frame _ v)⟩

theorem completes_popped_setStackPair {q : StackPair} {v : Word}
    (hexec : exec i s = .next ((s.afterFetches (ownIndex i) len m1 cost).popped.setStackPair q v)) :
    Completes i s len m1 cost fun u =>
      u.stackPair q = v ∧ u.sp = s.sp + 2 ∧ (∀ k, k ≠ q → u.stackPair k = s.stackPair k) ∧
        { s.unfetched u with main := s.main, sp := s.sp } = s := by
  have hframe := (s.afterFetches (ownIndex i) len m1 cost).popped.setStackPair_frame q v
  exact completes_of_keepsFetches hexec ⟨by simp, by simp, by simp, by simp⟩
    ⟨State.stackPair_setStackPair _ q v, State.setStackPair_sp _ q v,
      fun _ hk => State.stackPair_setStackPair_of_ne _ hk v,
      congrArg (fun t => { s.unfetched t with sp := s.sp }) hframe⟩

theorem completes_popped_setXY {x : IndexReg} {v : Word}
    (hexec : exec i s = .next ((s.afterFetches (ownIndex i) len m1 cost).popped.setXY x v)) :
    Completes i s len m1 cost fun u =>
      u.xy x = v ∧ u.sp = s.sp + 2 ∧ (∀ y, y ≠ x → u.xy y = s.xy y) ∧
        { s.unfetched u with ix := s.ix, iy := s.iy, sp := s.sp } = s := by
  obtain ⟨hxy, hframe⟩ := (s.afterFetches (ownIndex i) len m1 cost).popped.setXY_onlyXY x v
  exact completes_of_keepsFetches hexec ⟨by simp, by simp, by simp, by simp⟩
    ⟨State.xy_setXY _ x v, State.setXY_sp _ x v, hxy,
      congrArg (fun t => { s.unfetched t with sp := s.sp }) hframe⟩

end

end Sys2Proof.Machine

namespace Sys2Proof.Proofs

open Sys2Proof.Machine

/-- Settles O22: each load is `State.setPair` or `State.setXY` after its fetches; LD SP,HL and LD SP,XY write the pair
SP. -/
theorem wordLoadsIntoPairs : Obligations.WordLoadsIntoPairs :=
  ⟨fun _ _ _ => completes_setPair rfl,
    fun _ _ _ => completes_setXY (exec_of_runXY (Eq.refl (execLdXYNN ..)) rfl),
    fun _ _ => completes_setPair rfl,
    fun _ _ _ => completes_setPair rfl,
    fun _ _ _ => completes_setXY (exec_of_runXY (Eq.refl (execLdXYMem ..)) rfl),
    fun _ => completes_setPair (p := .sp) rfl,
    fun _ _ => completes_setPair (p := .sp) (exec_of_runXY (Eq.refl (execLdSPXY ..)) rfl)⟩

/-- Settles O23: each store is `State.writeWord` after its fetches. -/
theorem wordStoresToMemory : Obligations.WordStoresToMemory :=
  ⟨fun _ _ => completes_writeWord rfl,
    fun _ _ _ => completes_writeWord rfl,
    fun _ _ _ => completes_writeWord (exec_of_runXY (Eq.refl (execLdMemXY ..)) rfl)⟩

/-- Settles O24: a push is a word store below SP, a pop a read at SP and a write to its pair. -/
theorem pushAndPop : Obligations.PushAndPop :=
  ⟨fun _ _ => completes_push16 rfl,
    fun _ _ => completes_push16 (exec_of_runXY (Eq.refl (execPushXY ..)) rfl),
    fun _ _ => completes_popped_setStackPair rfl,
    fun _ _ => completes_popped_setXY (exec_of_runXY (Eq.refl (execPopXY ..)) rfl)⟩

end Sys2Proof.Proofs
end

section
/-! PROOFS. The family of 43_exchange_block.md: the exchanges swap their operands, the block instructions move or
compare one byte, and a repeating form goes back to its first byte while it has more to do (R285). -/

namespace Sys2Proof.Machine

open Spec

/-! ### Exchanges of a register and a word of memory -/

theorem State.pair_writeWord (s : State) (a v : Word) (p : Pair) : (s.writeWord a v).pair p = s.pair p := by
  cases p <;> simp [State.pair]

theorem State.xy_writeWord (s : State) (a v : Word) (x : IndexReg) : (s.writeWord a v).xy x = s.xy x := by
  cases x <;> simp [State.xy]

section

variable {i : Instr} {s : State} {len : Word} {m1 : Byte} {cost : Count}

theorem completes_writeWord_setPair_hl {a v w : Word}
    (hexec : exec i s = .next (((s.afterFetches (ownIndex i) len m1 cost).writeWord a v).setPair .hl w)) :
    Completes i s len m1 cost fun u =>
      u.pair .hl = w ∧ StoredWord s u a v ∧ (∀ p, p ≠ .hl → u.pair p = s.pair p) ∧ u.main.a = s.main.a ∧
        u.main.f = s.main.f ∧ { s.unfetched u with main := s.main, mem := s.mem } = s := by
  have hmain := (s.afterFetches (ownIndex i) len m1 cost).writeWord_main a v
  have hframe := (s.afterFetches (ownIndex i) len m1 cost).writeWord_frame a v
  obtain ⟨hpair, ha, hf, -⟩ := ((s.afterFetches (ownIndex i) len m1 cost).writeWord a v).setPair_onlyPair .hl w
  exact completes_of_keepsFetches hexec ⟨by simp, by simp, by simp, by simp⟩
    ⟨State.pair_setPair _ .hl w, State.storedWord_writeWord _ a v,
      fun p hp => (hpair p hp).trans (State.pair_writeWord _ a v p),
      ha.trans (congrArg RegSet.a hmain), hf.trans (congrArg RegSet.f hmain),
      congrArg (fun t => { s.unfetched t with main := s.main }) hframe⟩

theorem completes_writeWord_setXY {x : IndexReg} {a v w : Word}
    (hexec : exec i s = .next (((s.afterFetches (ownIndex i) len m1 cost).writeWord a v).setXY x w)) :
    Completes i s len m1 cost fun u =>
      u.xy x = w ∧ StoredWord s u a v ∧ (∀ y, y ≠ x → u.xy y = s.xy y) ∧
        { s.unfetched u with ix := s.ix, iy := s.iy, mem := s.mem } = s := by
  have hmem := ((s.afterFetches (ownIndex i) len m1 cost).writeWord a v).setXY_mem x w
  have hframe := (s.afterFetches (ownIndex i) len m1 cost).writeWord_frame a v
  obtain ⟨hxy, -⟩ := ((s.afterFetches (ownIndex i) len m1 cost).writeWord a v).setXY_onlyXY x w
  refine completes_of_keepsFetches hexec ⟨by simp, by simp, by simp, by simp⟩
    ⟨State.xy_setXY _ x w, fun b => (State.readByte_congr hmem b).trans (State.storedWord_writeWord _ a v b),
      fun y hy => (hxy y hy).trans (State.xy_writeWord _ a v y), ?_⟩
  cases x <;> exact congrArg (fun t => { s.unfetched t with ix := s.ix, iy := s.iy }) hframe

/-! ### Iterations of a repeating form (R285) -/

/-- An iteration that is the last one ends past the instruction. -/
theorem completes_of_repeatIf {u : State} {again : Bool} {post : State → Prop}
    (hexec : exec i s = .next (u.repeatIf again)) (hlast : ¬ again = true)
    (hkeeps : KeepsFetches (s.afterFetches (ownIndex i) len m1 cost) u) (hpost : post u) :
    Completes i s len m1 cost post := by
  rw [State.repeatIf, if_neg hlast] at hexec
  exact completes_of_keepsFetches hexec hkeeps hpost

/-- Any other iteration ends at the first of the instruction's two bytes, at 5 T-states beside the fetches' 16. -/
theorem goesTo_of_repeatIf {u : State} {again : Bool} {post : State → Prop}
    (hexec : exec i s = .next (u.repeatIf again)) (hmore : again = true) (hown : ownIndex i = none)
    (hkeeps : KeepsFetches (s.fetched 2 m1 16) u) (hpost : post (u.repeatIf again)) :
    GoesTo i s s.pc m1 21 post := by
  subst hmore
  have hpc : u.pc - 2 = s.pc := hkeeps.pc ▸ BitVec.add_sub_cancel s.pc 2
  have htstates : u.tstates + 5 = s.tstates + 21 := hkeeps.tstates ▸ BitVec.add_assoc s.tstates 16 5
  rw [GoesTo, hown]
  exact ⟨_, hexec, hpc, ⟨hkeeps.r, htstates, hkeeps.pfx⟩, hpost⟩

end

/-- BC is 0 after its decrement just where it was 1. -/
theorem State.bcLeft_iff {s u : State} (hbc : u.pair .bc = s.pair .bc - 1) : u.bcLeft = true ↔ s.pair .bc ≠ 1 := by
  have hleft : u.bcLeft = true ↔ u.pair .bc ≠ 0 := bne_iff_ne
  rw [hleft, hbc]
  exact sub_ne_zero

/-! ### Block transfers (R286 to R289) -/

theorem State.blockMove_keepsFetches (back : Bool) (s : State) : KeepsFetches s (s.blockMove back) :=
  ⟨by simp, by simp, by simp, by simp⟩

theorem moved_fetched_blockMove (back : Bool) (s : State) (len : Word) (m1 : Byte) (cost : Count) :
    Moved back s ((s.fetched len m1 cost).blockMove back) := by
  have hmain := (s.fetched len m1 cost).writeByte_main s.main.de (s.readByte s.main.hl)
  have hframe := (s.fetched len m1 cost).writeByte_frame s.main.de (s.readByte s.main.hl)
  have hbc : ((s.fetched len m1 cost).blockMove back).pair .bc = s.pair .bc - 1 := join_hi_lo _
  exact ⟨State.stored_writeByte (s.fetched len m1 cost) _ _, join_hi_lo _, join_hi_lo _, hbc,
    (congrArg RegSet.a hmain :), rfl, rfl, hbc ▸ bne_iff_ne, rfl, rfl, rfl,
    congrArg (fun t => { s.unfetched t with main := s.main, draws := s.draws }) hframe⟩

theorem moved_repeatIf {back : Bool} {s u : State} (h : Moved back s u) (again : Bool) :
    Moved back s (u.repeatIf again) := by
  cases again <;> exact h

theorem bcLeft_iff_of_moved {back : Bool} {s u : State} (h : Moved back s u) :
    u.bcLeft = true ↔ s.pair .bc ≠ 1 := by
  obtain ⟨-, -, -, hbc, -⟩ := h
  exact State.bcLeft_iff hbc

/-! ### Block searches (R290 to R293) -/

theorem State.blockSearch_keepsFetches (back : Bool) (s : State) : KeepsFetches s (s.blockSearch back) :=
  ⟨rfl, rfl, rfl, rfl⟩

theorem searched_fetched_blockSearch (back : Bool) (s : State) (len : Word) (m1 : Byte) (cost : Count) :
    Searched back s ((s.fetched len m1 cost).blockSearch back) := by
  have hbc : ((s.fetched len m1 cost).blockSearch back).pair .bc = s.pair .bc - 1 := join_hi_lo _
  exact ⟨join_hi_lo _, hbc, rfl, rfl, signZero_setSZ s.main.f _, decide_eq_true_iff, hbc ▸ bne_iff_ne, rfl, rfl, rfl⟩

theorem searched_repeatIf {back : Bool} {s u : State} (h : Searched back s u) (again : Bool) :
    Searched back s (u.repeatIf again) := by
  cases again <;> exact h

/-- A search goes on while BC is not 0 and the byte was not A, which Z says. -/
theorem searchLeft_iff_of_searched {back : Bool} {s u : State} (h : Searched back s u) :
    (u.bcLeft && !u.main.f.z) = true ↔ s.pair .bc ≠ 1 ∧ s.main.a ≠ s.readByte (s.pair .hl) := by
  obtain ⟨-, hbc, -, -, ⟨-, hz⟩, -⟩ := h
  have hmatch : u.main.f.z = true ↔ s.main.a = s.readByte (s.pair .hl) := hz.trans sub_eq_zero
  rw [Bool.and_eq_true, State.bcLeft_iff hbc, Bool.not_eq_true', ← Bool.not_eq_true, hmatch]

end Sys2Proof.Machine

namespace Sys2Proof.Proofs

open Sys2Proof.Machine

/-- Settles O25: the swaps inside the register sets are record updates, and those with the word at SP store the old
register there and then load it. -/
theorem exchanges : Obligations.Exchanges := by
  refine ⟨fun s => ?_, fun s => ?_, fun s => ?_, fun s => completes_writeWord_setPair_hl rfl,
    fun s x => completes_writeWord_setXY (exec_of_runXY (Eq.refl (execExSPXY ..)) rfl)⟩
  · exact completes_of_keepsFetches rfl ⟨rfl, rfl, rfl, rfl⟩ ⟨rfl, rfl, rfl, rfl, rfl, rfl⟩
  · refine completes_of_keepsFetches rfl ⟨rfl, rfl, rfl, rfl⟩ ⟨rfl, rfl, rfl, rfl, fun r hr => ?_, rfl⟩
    cases r <;> trivial
  · refine completes_of_keepsFetches rfl ⟨rfl, rfl, rfl, rfl⟩ ⟨fun r hr => ?_, rfl, rfl, rfl, rfl, rfl⟩
    cases r <;> trivial

/-- Settles O26: the four are `State.blockMove`, and the repeating ones end at their first byte unless BC was 1. -/
theorem blockTransfers : Obligations.BlockTransfers := by
  have hkeeps := fun (back : Bool) (s : State) => (s.fetched 2 2 16).blockMove_keepsFetches back
  have hmoved := fun (back : Bool) (s : State) => moved_fetched_blockMove back s 2 2 16
  refine ⟨fun s => completes_of_keepsFetches rfl (hkeeps false s) (hmoved false s),
    fun s => completes_of_keepsFetches rfl (hkeeps true s) (hmoved true s), fun s hbc => ?_, fun s hbc => ?_⟩
  · have hlast := fun back => mt (bcLeft_iff_of_moved (hmoved back s)).1 (not_not_intro hbc)
    exact ⟨completes_of_repeatIf rfl (hlast false) (hkeeps false s) (hmoved false s),
      completes_of_repeatIf rfl (hlast true) (hkeeps true s) (hmoved true s)⟩
  · have hmore := fun back => (bcLeft_iff_of_moved (hmoved back s)).2 hbc
    exact ⟨goesTo_of_repeatIf rfl (hmore false) rfl (hkeeps false s) (moved_repeatIf (hmoved false s) _),
      goesTo_of_repeatIf rfl (hmore true) rfl (hkeeps true s) (moved_repeatIf (hmoved true s) _)⟩

/-- Settles O27: the four are `State.blockSearch`, and the repeating ones end at their first byte unless BC was 1 or
the byte was A. -/
theorem blockSearches : Obligations.BlockSearches := by
  have hkeeps := fun (back : Bool) (s : State) => (s.fetched 2 2 16).blockSearch_keepsFetches back
  have hsearched := fun (back : Bool) (s : State) => searched_fetched_blockSearch back s 2 2 16
  refine ⟨fun s => completes_of_keepsFetches rfl (hkeeps false s) (hsearched false s),
    fun s => completes_of_keepsFetches rfl (hkeeps true s) (hsearched true s), fun s hend => ?_, fun s hbc ha => ?_⟩
  · have hend : ¬ (s.pair .bc ≠ 1 ∧ s.main.a ≠ s.readByte (s.pair .hl)) := fun h => hend.elim h.1 h.2
    have hlast := fun back => mt (searchLeft_iff_of_searched (hsearched back s)).1 hend
    exact ⟨completes_of_repeatIf rfl (hlast false) (hkeeps false s) (hsearched false s),
      completes_of_repeatIf rfl (hlast true) (hkeeps true s) (hsearched true s)⟩
  · have hmore := fun back => (searchLeft_iff_of_searched (hsearched back s)).2 ⟨hbc, ha⟩
    exact ⟨goesTo_of_repeatIf rfl (hmore false) rfl (hkeeps false s) (searched_repeatIf (hsearched false s) _),
      goesTo_of_repeatIf rfl (hmore true) rfl (hkeeps true s) (searched_repeatIf (hsearched true s) _)⟩

end Sys2Proof.Proofs
end

section
/-! PROOFS. The family of 44_arith8_logic.md: the flags of an addition and a subtraction in exact arithmetic (R321,
R322), each ALU operation in the five operand forms of R320, INC and DEC in their four (R331 to R336), and the sum of
decimal digits that ADD and then DAA form (R323, R360). -/

namespace Sys2Proof.Machine

open Spec

/-! ### Flags -/

theorem getLsbD_seven_eq_decide (v : Byte) : v.getLsbD 7 = decide (128 ≤ v.toNat) := v.msb_eq_decide

/-- An addition overflows when both operands have one sign and the result the other. -/
theorem add8_pv_iff (a b : Byte) (c : Bool) (free : Byte) :
    (add8 a b c free).2.pv = true ↔ a.toInt + b.toInt + c.toNat < -128 ∨ 127 < a.toInt + b.toInt + c.toNat := by
  change (a.getLsbD 7 == b.getLsbD 7 &&
    (BitVec.ofNat 8 (a.toNat + b.toNat + c.toNat)).getLsbD 7 != a.getLsbD 7) = true ↔ _
  have hc := c.toNat_le
  simp only [getLsbD_seven_eq_decide, BitVec.toNat_ofNat, BitVec.toInt_eq_toNat_cond, Bool.and_eq_true, beq_iff_eq,
    bne_iff_ne, ne_eq, decide_eq_decide]
  omega

/-- A subtraction overflows when the operands differ in sign and the result has not that of the first. -/
theorem sub8_pv_iff (a b : Byte) (c : Bool) (free : Byte) :
    (sub8 a b c free).2.pv = true ↔ a.toInt - b.toInt - c.toNat < -128 ∨ 127 < a.toInt - b.toInt - c.toNat := by
  change (a.getLsbD 7 != b.getLsbD 7 &&
    (BitVec.ofInt 8 ((a.toNat : Int) - b.toNat - c.toNat)).getLsbD 7 != a.getLsbD 7) = true ↔ _
  have hc := c.toNat_le
  simp only [getLsbD_seven_eq_decide, BitVec.toNat_ofInt, BitVec.toInt_eq_toNat_cond, Bool.and_eq_true,
    bne_iff_ne, ne_eq, decide_eq_decide]
  omega

theorem addFlags_add8 (a b : Byte) (c : Bool) (free : Byte) : AddFlags a b c (add8 a b c free).2 :=
  ⟨signZero_setSZ .zero _, decide_eq_true_iff, add8_pv_iff a b c free, rfl, decide_eq_true_iff⟩

theorem subFlags_sub8 (a b : Byte) (c : Bool) (free : Byte) : SubFlags a b c (sub8 a b c free).2 := by
  refine ⟨signZero_setSZ .zero _, decide_eq_true_iff.trans ?_, sub8_pv_iff a b c free, rfl,
    decide_eq_true_iff.trans ?_⟩
  all_goals
    change _ - (c.toNat : Int) < 0 ↔ _
    omega

theorem logicFlags_logicFlags (v : Byte) (h : Bool) (free : Byte) : LogicFlags v h (logicFlags v h free) :=
  ⟨⟨signZero_setSZ .zero v, parity_iff_ones_even v⟩, rfl, rfl, rfl⟩

theorem incFlags_incFlagged {s t : State} (v : Byte) (hf : t.main.f = s.main.f) :
    IncFlags v s (t.incFlagged v) := by
  refine ⟨signZero_setSZ .zero (v + 1), beq_iff_eq, beq_iff_eq.trans ?_, rfl, (congrArg Flags.c hf :)⟩
  exact BitVec.toInt_inj (y := 0x7F) |>.symm

theorem decFlags_decFlagged {s t : State} (v : Byte) (hf : t.main.f = s.main.f) :
    DecFlags v s (t.decFlagged v) := by
  refine ⟨signZero_setSZ .zero (v - 1), beq_iff_eq, beq_iff_eq.trans ?_, rfl, (congrArg Flags.c hf :)⟩
  exact BitVec.toInt_inj (y := 0x80) |>.symm

/-! ### The ALU operations in their operand forms (R320) -/

/-- What the rule of `op` (R323 to R330) says of A and F after the operation on `v`. -/
def AluResult (op : AluOp) (v : Byte) (s u : State) : Prop :=
  match op with
  | .add => Added v false s u
  | .adc => Added v s.main.f.c s u
  | .sub => Subtracted v false s u
  | .sbc => Subtracted v s.main.f.c s u
  | .and => Combined (s.main.a &&& v) true s u
  | .xor => Combined (s.main.a ^^^ v) false s u
  | .or => Combined (s.main.a ||| v) false s u
  | .cp => SubFlags s.main.a v false u.main.f ∧ OnlyFlags s u

theorem aluResult_aluA (op : AluOp) (v : Byte) (s : State) (own : Option IndexReg) (len : Word) (m1 : Byte)
    (cost : Count) : AluResult op v s ((s.afterFetches own len m1 cost).aluA op v) := by
  have hframe : OnlyRegAndFlags s ((s.afterFetches own len m1 cost).aluA op v) .a :=
    ⟨fun q hq => by cases q <;> trivial, rfl⟩
  cases op with
  | add | adc => exact ⟨rfl, addFlags_add8 .., hframe⟩
  | sub | sbc => exact ⟨rfl, subFlags_sub8 .., hframe⟩
  | and | xor | or => exact ⟨rfl, logicFlags_logicFlags .., hframe⟩
  | cp => exact ⟨subFlags_sub8 .., rfl⟩

section

variable {i : Instr} {s : State} {len : Word} {m1 : Byte} {cost : Count}

theorem completes_aluA {op : AluOp} {v : Byte}
    (hexec : exec i s = .next ((s.afterFetches (ownIndex i) len m1 cost).aluA op v)) :
    Completes i s len m1 cost (AluResult op v s) :=
  completes_of_keepsFetches hexec ⟨rfl, rfl, rfl, rfl⟩ (aluResult_aluA op v s (ownIndex i) len m1 cost)

end

theorem completes_aluR (op : AluOp) (s : State) (q : Reg8) :
    Completes (aluR q op) s 1 1 4 (AluResult op (s.reg q) s) := by
  cases op <;> exact completes_aluA rfl

theorem completes_aluN (op : AluOp) (s : State) (n : Byte) : Completes (aluN n op) s 2 1 7 (AluResult op n s) := by
  cases op <;> exact completes_aluA rfl

theorem completes_aluIndHL (op : AluOp) (s : State) :
    Completes (aluIndHL op) s 1 1 7 (AluResult op (s.readByte (s.pair .hl)) s) := by
  cases op <;> exact completes_aluA rfl

theorem completes_aluIndXY (op : AluOp) (s : State) (x : IndexReg) (d : Byte) :
    Completes (aluIndXY x d op) s 3 2 19 (AluResult op (s.readByte (s.ea x d)) s) := by
  cases op <;> exact completes_aluA (exec_of_runXY (Eq.refl (aluAtXY ..)) rfl)

theorem completes_aluHalf (op : AluOp) (s : State) (x : IndexReg) (h : Half) :
    Completes (aluHalf x h op) s 2 2 8 (AluResult op (s.half x h) s) := by
  cases op <;> exact completes_aluA (exec_of_runXY (Eq.refl (aluOnHalf ..)) rfl)

/-! ### An operand written, and then F

What is known of the flags may rest on F before they are set, which a write to the operand leaves as it was. -/

section

variable {i : Instr} {s : State} {len : Word} {m1 : Byte} {cost : Count} {v : Byte} {f : Flags} {P : State → Prop}

theorem completes_setReg_setFlags {r : Reg8}
    (hexec : exec i s = .next (((s.afterFetches (ownIndex i) len m1 cost).setReg r v).setFlags f))
    (hflags : ((s.afterFetches (ownIndex i) len m1 cost).setReg r v).main.f = s.main.f →
      P (((s.afterFetches (ownIndex i) len m1 cost).setReg r v).setFlags f)) :
    Completes i s len m1 cost fun u => u.reg r = v ∧ P u ∧ OnlyRegAndFlags s u r := by
  refine completes_of_keepsFetches hexec ⟨rfl, rfl, rfl, rfl⟩ ⟨?_, hflags (RegSet.set_f ..), fun q hq => ?_, rfl⟩
  · cases r <;> rfl
  · cases r <;> cases q <;> trivial

theorem completes_writeByte_setFlags {a : Word}
    (hexec : exec i s = .next (((s.afterFetches (ownIndex i) len m1 cost).writeByte a v).setFlags f))
    (hflags : ((s.afterFetches (ownIndex i) len m1 cost).writeByte a v).main.f = s.main.f →
      P (((s.afterFetches (ownIndex i) len m1 cost).writeByte a v).setFlags f)) :
    Completes i s len m1 cost fun u => Stored s u a v ∧ P u ∧ OnlyMemAndFlags s u := by
  have hframe := (s.afterFetches (ownIndex i) len m1 cost).writeByte_frame a v
  exact completes_of_keepsFetches hexec ⟨by simp, by simp, by simp, by simp⟩
    ⟨State.stored_writeByte _ a v, hflags (congrArg RegSet.f (State.writeByte_main ..)), congrArg s.unflagged hframe⟩

theorem completes_setHalf_setFlags {x : IndexReg} {h : Half}
    (hexec : exec i s = .next (((s.afterFetches (ownIndex i) len m1 cost).setHalf x h v).setFlags f))
    (hflags : ((s.afterFetches (ownIndex i) len m1 cost).setHalf x h v).main.f = s.main.f →
      P (((s.afterFetches (ownIndex i) len m1 cost).setHalf x h v).setFlags f)) :
    Completes i s len m1 cost fun u =>
      u.half x h = v ∧ (∀ k, k ≠ h → u.half x k = s.half x k) ∧ P u ∧ OnlyXYAndFlags s u x := by
  have hhalf := fun k => (s.afterFetches (ownIndex i) len m1 cost).half_setHalf x h k v
  obtain ⟨hxy, hframe⟩ := (s.afterFetches (ownIndex i) len m1 cost).setHalf_onlyXY x h v
  exact completes_of_keepsFetches hexec ⟨by simp, by simp, by simp, by simp⟩
    ⟨(hhalf h).trans (if_pos rfl), fun k hk => (hhalf k).trans (if_neg hk),
      hflags (congrArg RegSet.f (State.setHalf_main ..)), hxy, congrArg s.unflagged hframe⟩

end

/-! ### Decimal digits -/

theorem bcd_toNat {n : Nat} (hn : n < 100) : (bcd n).toNat = n / 10 * 16 + n % 10 := by
  rw [bcd, BitVec.toNat_ofNat]
  omega

/-- What DAA adds to A after an addition, or takes from it after a subtraction (R360). -/
def daaCorrection (a : Byte) (f : Flags) : Nat :=
  (if f.h = true ∨ a.toNat % 16 > 9 then 0x06 else 0) + if f.c || decide (a.toNat > 0x99) then 0x60 else 0

theorem daaCorrection_le (a : Byte) (f : Flags) : daaCorrection a f ≤ 256 := by
  rw [daaCorrection]
  split_ifs <;> omega

/-- The two parts of the correction have no bit in common, so their bitwise or is their sum. -/
theorem daa8_toNat (a : Byte) (f : Flags) (free : Byte) : (daa8 a f free).1.toNat =
    (if f.n then a.toNat + 256 - daaCorrection a f else a.toNat + daaCorrection a f) % 256 := by
  have hor : ∀ low high : Bool, ((if low then 0x06 else 0 : Byte) ||| if high then 0x60 else 0).toNat =
      (if low then 0x06 else 0) + if high then 0x60 else 0 := by decide
  have hcorr : ((if f.h || decide (a.toNat % 16 > 9) then 0x06 else 0 : Byte) |||
      if f.c || decide (a.toNat > 0x99) then 0x60 else 0).toNat = daaCorrection a f := by
    refine (hor _ _).trans ?_
    simp only [daaCorrection, Bool.or_eq_true, decide_eq_true_eq]
  have hle := daaCorrection_le a f
  rw [daa8]
  dsimp only
  split
  · rw [BitVec.toNat_sub, hcorr]
    omega
  · rw [BitVec.toNat_add, hcorr]

theorem daa8_c_iff (a : Byte) (f : Flags) (free : Byte) :
    (daa8 a f free).2.c = true ↔ f.c = true ∨ a.toNat > 0x99 := by
  rw [show (daa8 a f free).2.c = (f.c || decide (a.toNat > 0x99)) from rfl, Bool.or_eq_true, decide_eq_true_eq]

/-- A and F are as an addition of bytes of decimal digits leaves them whose tens have the sum `t` and units the sum
`u`. -/
structure DigitSum (t u : Nat) (a : Byte) (f : Flags) : Prop where
  tens : t ≤ 18
  units : u ≤ 18
  a : a.toNat = (16 * t + u) % 256
  h : f.h = true ↔ 15 < u
  n : f.n = false
  c : f.c = true ↔ 255 < 16 * t + u

theorem digitSum_add8 {m n : Nat} (hm : m < 100) (hn : n < 100) (free : Byte) :
    DigitSum (m / 10 + n / 10) (m % 10 + n % 10) (add8 (bcd m) (bcd n) false free).1
      (add8 (bcd m) (bcd n) false free).2 := by
  obtain ⟨-, hh, -, hN, hc⟩ := addFlags_add8 (bcd m) (bcd n) false free
  have ha : (add8 (bcd m) (bcd n) false free).1.toNat = ((bcd m).toNat + (bcd n).toNat) % 256 := BitVec.toNat_ofNat ..
  have hlow (k : Nat) : (k / 10 * 16 + k % 10) % 16 = k % 10 := by omega
  rw [bcd_toNat hm, bcd_toNat hn] at hh hc ha
  rw [hlow, hlow, Bool.toNat_false] at hh
  rw [Bool.toNat_false] at hc
  exact ⟨by omega, by omega, by omega, hh, hN, hc.trans (by omega)⟩

section

variable {t u : Nat} {a : Byte} {f : Flags}

/-- The correction of the high digit is made just where the decimal sum reaches 100, carry of the units included. -/
theorem DigitSum.high_iff (hd : DigitSum t u a f) : f.c = true ∨ a.toNat > 0x99 ↔ 100 ≤ 10 * t + u := by
  obtain ⟨ht, hu, ha, -, -, hc⟩ := hd
  rw [ha, hc]
  omega

/-- That of the low digit is made just where the units reach 10. -/
theorem DigitSum.low_iff (hd : DigitSum t u a f) : f.h = true ∨ a.toNat % 16 > 9 ↔ 10 ≤ u := by
  obtain ⟨-, hu, ha, hh, -, -⟩ := hd
  rw [ha, hh]
  omega

/-- Each carry between decimal digits, of the units and of the tens, adds the 6 by which 16 exceeds 10 in its place. -/
theorem DigitSum.daaCorrection_eq (hd : DigitSum t u a f) :
    daaCorrection a f = 0x06 * (u / 10) + 0x60 * ((10 * t + u) / 100) := by
  have hlow : (if f.h = true ∨ a.toNat % 16 > 9 then 0x06 else 0) = 0x06 * (u / 10) := by
    have := hd.units
    simp only [hd.low_iff]
    split <;> omega
  have hhigh : (if f.c || decide (a.toNat > 0x99) then 0x60 else 0) = 0x60 * ((10 * t + u) / 100) := by
    have := hd.tens
    have := hd.units
    simp only [Bool.or_eq_true, decide_eq_true_eq, hd.high_iff]
    split <;> omega
  rw [daaCorrection, hlow, hhigh]

theorem DigitSum.daa8_fst (hd : DigitSum t u a f) (free : Byte) :
    (daa8 a f free).1 = bcd ((10 * t + u) % 100) := by
  have hunits : (10 * t + u) % 10 + 10 * (u / 10) = u := by omega
  have htens : (10 * t + u) % 100 / 10 + 10 * ((10 * t + u) / 100) = t + u / 10 := by omega
  apply BitVec.eq_of_toNat_eq
  rw [daa8_toNat, hd.n, if_neg Bool.false_ne_true, hd.daaCorrection_eq, hd.a, Nat.mod_add_mod,
    bcd_toNat (Nat.mod_lt _ (by decide))]
  generalize (10 * t + u) / 100 = carry at *
  omega

theorem DigitSum.exec_daa {s : State} (hd : DigitSum t u s.main.a s.main.f) :
    ∃ v, exec .daa s = .next v ∧ v.main.a = bcd ((10 * t + u) % 100) ∧ (v.main.f.c = true ↔ 100 ≤ 10 * t + u) :=
  ⟨_, rfl, hd.daa8_fst s.freeByte, (daa8_c_iff s.main.a s.main.f s.freeByte).trans hd.high_iff⟩

end

end Sys2Proof.Machine

namespace Sys2Proof.Proofs

open Sys2Proof.Machine

/-- Settles O28: ADD and ADC are two of the ALU operations, in each operand form. -/
theorem byteAdditions : Obligations.ByteAdditions :=
  ⟨fun s q => ⟨completes_aluR .add s q, completes_aluR .adc s q⟩,
    fun s n => ⟨completes_aluN .add s n, completes_aluN .adc s n⟩,
    fun s => ⟨completes_aluIndHL .add s, completes_aluIndHL .adc s⟩,
    fun s x d => ⟨completes_aluIndXY .add s x d, completes_aluIndXY .adc s x d⟩,
    fun s x h => ⟨completes_aluHalf .add s x h, completes_aluHalf .adc s x h⟩⟩

/-- Settles O29: SUB, SBC and CP are three of the ALU operations, in each operand form. -/
theorem byteSubtractions : Obligations.ByteSubtractions :=
  ⟨fun s q => ⟨completes_aluR .sub s q, completes_aluR .sbc s q, completes_aluR .cp s q⟩,
    fun s n => ⟨completes_aluN .sub s n, completes_aluN .sbc s n, completes_aluN .cp s n⟩,
    fun s => ⟨completes_aluIndHL .sub s, completes_aluIndHL .sbc s, completes_aluIndHL .cp s⟩,
    fun s x d => ⟨completes_aluIndXY .sub s x d, completes_aluIndXY .sbc s x d, completes_aluIndXY .cp s x d⟩,
    fun s x h => ⟨completes_aluHalf .sub s x h, completes_aluHalf .sbc s x h, completes_aluHalf .cp s x h⟩⟩

/-- Settles O30: AND, XOR and OR are three of the ALU operations, in each operand form. -/
theorem byteLogic : Obligations.ByteLogic :=
  ⟨fun s q => ⟨completes_aluR .and s q, completes_aluR .xor s q, completes_aluR .or s q⟩,
    fun s n => ⟨completes_aluN .and s n, completes_aluN .xor s n, completes_aluN .or s n⟩,
    fun s => ⟨completes_aluIndHL .and s, completes_aluIndHL .xor s, completes_aluIndHL .or s⟩,
    fun s x d => ⟨completes_aluIndXY .and s x d, completes_aluIndXY .xor s x d, completes_aluIndXY .or s x d⟩,
    fun s x h => ⟨completes_aluHalf .and s x h, completes_aluHalf .xor s x h, completes_aluHalf .or s x h⟩⟩

/-- Settles O31: each is a write to its operand that keeps F, and then one to F. -/
theorem byteIncrementsAndDecrements : Obligations.ByteIncrementsAndDecrements :=
  ⟨fun _ _ => completes_setReg_setFlags rfl (incFlags_incFlagged _),
    fun _ => completes_writeByte_setFlags rfl (incFlags_incFlagged _),
    fun _ _ _ => completes_writeByte_setFlags (exec_of_runXY (Eq.refl (execIncIndXY ..)) rfl) (incFlags_incFlagged _),
    fun _ _ _ => completes_setHalf_setFlags (exec_of_runXY (Eq.refl (execIncHalf ..)) rfl) (incFlags_incFlagged _),
    fun _ _ => completes_setReg_setFlags rfl (decFlags_decFlagged _),
    fun _ => completes_writeByte_setFlags rfl (decFlags_decFlagged _),
    fun _ _ _ => completes_writeByte_setFlags (exec_of_runXY (Eq.refl (execDecIndXY ..)) rfl) (decFlags_decFlagged _),
    fun _ _ _ => completes_setHalf_setFlags (exec_of_runXY (Eq.refl (execDecHalf ..)) rfl) (decFlags_decFlagged _)⟩

/-- Settles O33: ADD leaves the binary sum of the digits and its carries, from which DAA forms the decimal sum. -/
theorem decimalAddition : Obligations.DecimalAddition := by
  intro s m n hm hn ha
  have hd := digitSum_add8 hm hn s.freeByte
  rw [← ha] at hd
  have hmn : 10 * (m / 10 + n / 10) + (m % 10 + n % 10) = m + n := by omega
  obtain ⟨u, hu, hA, hC⟩ := DigitSum.exec_daa (s := (s.fetched 2 1 7).aluA .add (Spec.bcd n)) hd
  rw [hmn] at hA hC
  exact ⟨_, u, rfl, hu, hA, hC⟩

end Sys2Proof.Proofs
end

section
/-! PROOFS. The family of 45_general_cpu_control.md: DAA, CPL, NEG, CCF and SCF set A and F as their rules give them
(R360 to R364), NOP, the ED holes, DI, EI and IM change what they name and no more (R365, R367 to R370), and the halted
core takes idle cycles until a boundary ends the halt (R366, R706). -/

namespace Sys2Proof.Machine

open Spec

/-! ### A and F -/

theorem onlyRegAndFlags_fetched_setReg_setFlags (s : State) (len : Word) (m1 : Byte) (cost : Count) (v : Byte)
    (f : Flags) : OnlyRegAndFlags s (((s.fetched len m1 cost).setReg .a v).setFlags f) .a :=
  ⟨fun q hq => by cases q <;> trivial, rfl⟩

theorem daa8_h_iff (a : Byte) (f : Flags) (free : Byte) :
    (daa8 a f free).2.h = true ↔ if f.n then f.h = true ∧ a.toNat % 16 < 6 else a.toNat % 16 > 9 := by
  change (if f.n then f.h && decide (a.toNat % 16 < 6) else decide (a.toNat % 16 > 9)) = true ↔ _
  split
  · rw [Bool.and_eq_true, decide_eq_true_eq]
  · exact decide_eq_true_iff

theorem signZeroParity_daa8 (a : Byte) (f : Flags) (free : Byte) :
    SignZeroParity (daa8 a f free).1 (daa8 a f free).2 :=
  ⟨signZero_setSZ f _, parity_iff_ones_even _⟩

theorem sub8_zero_fst (a free : Byte) : (sub8 0 a false free).1 = 0 - a := by
  change BitVec.ofInt 8 (0 - a.toNat - 0) = 0 - a
  apply BitVec.eq_of_toNat_eq
  rw [BitVec.toNat_ofInt, BitVec.toNat_sub, show (0 : Byte).toNat = 0 from rfl]
  omega

/-- NEG writes A and then F, which is the subtraction of A from 0 in both parts (R362). -/
theorem State.negated_eq (s : State) :
    s.negated = (s.setReg .a (0 - s.main.a)).setFlags (sub8 0 s.main.a false s.freeByte).2 := by
  rw [← sub8_zero_fst s.main.a s.freeByte]
  rfl

section

variable {i : Instr} {s : State} {len : Word} {m1 : Byte} {cost : Count}

theorem completes_negated (hexec : exec i s = .next (s.afterFetches (ownIndex i) len m1 cost).negated) :
    Completes i s len m1 cost fun u =>
      u.main.a = 0 - s.main.a ∧ SubFlags 0 s.main.a false u.main.f ∧ OnlyRegAndFlags s u .a := by
  rw [State.negated_eq] at hexec
  exact completes_setReg_setFlags hexec fun _ => subFlags_sub8 ..

/-! ### The interrupt mode -/

theorem completes_setIM {mode : BitVec 2}
    (hexec : exec i s = .next { s.afterFetches (ownIndex i) len m1 cost with im := mode }) :
    Completes i s len m1 cost fun u => u.im = mode ∧ { s.unfetched u with im := s.im } = s :=
  completes_of_keepsFetches hexec ⟨rfl, rfl, rfl, rfl⟩ ⟨rfl, rfl⟩

end

/-! ### The halted core -/

theorem step_idle {s : State} (hinbox : s.inbox = []) (hrun : s.run = .running) (hhalted : s.halted = true) :
    step s = .next s.idleCycle := by
  unfold step
  rw [State.takeInbox_nil hinbox]
  simp only [State.activity_idle hrun hhalted]

@[simp] theorem State.sampleRequest_speed (s : State) : s.sampleRequest.speed = s.speed := by
  unfold State.sampleRequest
  split
  · rfl
  · split
    · exact State.acceptInterrupt_speed _
    · rfl
  · rfl

/-- Only normal speed is throttled (R651). -/
theorem State.boundary_of_unthrottled {s : State} (h : s.speed = .unthrottled) : s.boundary = s.sampleRequest := by
  simp [State.boundary, State.throttleCheck, h]

/-- `s` with R and the cycle counter advanced by an idle cycle, before its boundary (R706). -/
def State.idled (s : State) : State := { s with r := s.r + 1, tstates := s.tstates + 4 }

theorem State.idleCycle_of_unthrottled {s : State} (h : s.speed = .unthrottled) :
    s.idleCycle = s.idled.sampleRequest :=
  State.boundary_of_unthrottled (s := s.idled) h

theorem State.storedWord_acceptInterrupt (s : State) : StoredWord s s.acceptInterrupt (s.sp - 2) s.pc := fun b =>
  (State.readByte_congr s.acceptInterrupt_mem b).trans (s.storedWord_push16 s.pc b)

end Sys2Proof.Machine

namespace Sys2Proof.Proofs

open Sys2Proof.Machine

/-- Settles O32: `daa8` is the rule, part by part. -/
theorem decimalAdjust : Obligations.DecimalAdjust := fun s =>
  completes_of_keepsFetches rfl ⟨rfl, rfl, rfl, rfl⟩
    ⟨⟨daa8_toNat s.main.a s.main.f s.freeByte, daa8_h_iff s.main.a s.main.f s.freeByte, rfl, rfl⟩,
      signZeroParity_daa8 s.main.a s.main.f s.freeByte, onlyRegAndFlags_fetched_setReg_setFlags ..⟩

/-- Settles O34: CPL and NEG write A and F, CCF and SCF only F. -/
theorem accumulatorAndCarryOperations : Obligations.AccumulatorAndCarryOperations := by
  refine ⟨fun s => ?_, fun _ => completes_negated rfl, fun _ _ => completes_negated rfl, fun s => ?_, fun s => ?_⟩
  · have hbits (k : Nat) (hk : k < 8) : (s.main.a ^^^ 0xFF).getLsbD k = !s.main.a.getLsbD k := by
      rw [show (0xFF : Byte) = BitVec.allOnes 8 from rfl, BitVec.xor_allOnes, BitVec.getLsbD_not, decide_eq_true hk,
        Bool.true_and]
    exact completes_of_keepsFetches rfl ⟨rfl, rfl, rfl, rfl⟩
      ⟨hbits, rfl, rfl, ⟨rfl, rfl, rfl⟩, rfl, onlyRegAndFlags_fetched_setReg_setFlags ..⟩
  all_goals exact completes_of_keepsFetches rfl ⟨rfl, rfl, rfl, rfl⟩ ⟨rfl, rfl, rfl, ⟨rfl, rfl, rfl⟩, rfl⟩

/-- Settles O35: the fetches are all that NOP and an ED hole do, and the others write their fields after them. -/
theorem controlInstructions : Obligations.ControlInstructions :=
  ⟨fun _ => completes_of_keepsFetches rfl ⟨rfl, rfl, rfl, rfl⟩ rfl,
    fun _ _ => completes_of_keepsFetches rfl ⟨rfl, rfl, rfl, rfl⟩ rfl,
    fun _ => completes_of_keepsFetches rfl ⟨rfl, rfl, rfl, rfl⟩ ⟨rfl, rfl, rfl⟩,
    fun _ => completes_of_keepsFetches rfl ⟨rfl, rfl, rfl, rfl⟩ ⟨rfl, rfl, rfl⟩,
    fun _ _ => ⟨completes_setIM rfl, completes_setIM rfl⟩,
    fun _ => ⟨completes_setIM rfl, completes_setIM rfl⟩,
    fun _ => ⟨completes_setIM rfl, completes_setIM rfl⟩⟩

/-- Settles O57: the step of a halted core is the idle cycle, and at unthrottled speed the boundary that ends it is
what the request asks for. -/
theorem haltAndIdleCycles : Obligations.HaltAndIdleCycles := by
  refine ⟨fun _ => completes_of_keepsFetches rfl ⟨rfl, rfl, rfl, rfl⟩ ⟨rfl, rfl⟩, fun _ => step_idle,
    fun s hinbox hrun hhalted hspeed => ?_⟩
  rw [step_idle hinbox hrun hhalted, State.idleCycle_of_unthrottled hspeed]
  refine ⟨fun hreq => ?_, fun hreq hiff => ?_, fun hreq hiff => ?_, fun hreq => ?_⟩
  · exact congrArg Host.Outcome.next (State.sampleRequest_idle (s := s.idled) hreq)
  · exact congrArg Host.Outcome.next (State.sampleRequest_dropped (s := s.idled) hreq hiff)
  · rw [State.sampleRequest_accepted (s := s.idled) hreq hiff]
    exact ⟨_, rfl, State.acceptInterrupt_halted _, State.acceptInterrupt_pc _, State.acceptInterrupt_sp _,
      State.storedWord_acceptInterrupt _, (State.acceptInterrupt_r _).trans (BitVec.add_assoc s.r 1 1),
      (State.acceptInterrupt_tstates _).trans (BitVec.add_assoc s.tstates 4 13)⟩
  · rw [State.sampleRequest_reset (s := s.idled) hreq]
    exact ⟨_, rfl, rfl, rfl⟩

end Sys2Proof.Proofs
end

section
/-! PROOFS. The family of 46_arith16.md: ADD, ADC and SBC write HL or an index register and then F, with the flags of
the exact sum or difference (R400 to R403), and INC and DEC write their operand alone (R404 to R407). -/

namespace Sys2Proof.Machine

open Spec

/-! ### Flags -/

theorem getLsbD_fifteen_eq_decide (v : Word) : v.getLsbD 15 = decide (32768 ≤ v.toNat) := v.msb_eq_decide

/-- An addition overflows when both operands have one sign and the result the other. -/
theorem adc16_pv_iff (a b : Word) (c : Bool) (free : Byte) : (adc16 a b c free).2.pv = true ↔
    a.toInt + b.toInt + c.toNat < -32768 ∨ 32767 < a.toInt + b.toInt + c.toNat := by
  change (a.getLsbD 15 == b.getLsbD 15 &&
    (BitVec.ofNat 16 (a.toNat + b.toNat + c.toNat)).getLsbD 15 != a.getLsbD 15) = true ↔ _
  have hc := c.toNat_le
  simp only [getLsbD_fifteen_eq_decide, BitVec.toNat_ofNat, BitVec.toInt_eq_toNat_cond, Bool.and_eq_true, beq_iff_eq,
    bne_iff_ne, ne_eq, decide_eq_decide]
  omega

/-- A subtraction overflows when the operands differ in sign and the result has not that of the first. -/
theorem sbc16_pv_iff (a b : Word) (c : Bool) (free : Byte) : (sbc16 a b c free).2.pv = true ↔
    a.toInt - b.toInt - c.toNat < -32768 ∨ 32767 < a.toInt - b.toInt - c.toNat := by
  change (a.getLsbD 15 != b.getLsbD 15 &&
    (BitVec.ofInt 16 ((a.toNat : Int) - b.toNat - c.toNat)).getLsbD 15 != a.getLsbD 15) = true ↔ _
  have hc := c.toNat_le
  simp only [getLsbD_fifteen_eq_decide, BitVec.toNat_ofInt, BitVec.toInt_eq_toNat_cond, Bool.and_eq_true,
    bne_iff_ne, ne_eq, decide_eq_decide]
  omega

/-- The last step for ADC and SBC alike, which set S and Z from the result in the same way (R401, R402). -/
theorem wordSigned_of_signZero {r : Word} {e : Int} {f : Flags} (hs : f.s = r.getLsbD 15) (hz : f.z = (r == 0))
    (hpv : f.pv = true ↔ e < -32768 ∨ 32767 < e) : WordSigned r e f := by
  refine ⟨?_, ?_, hpv⟩
  · rw [hs, getLsbD_fifteen_eq_decide, decide_eq_true_eq]
  · rw [hz, beq_iff_eq]

theorem wordSigned_adc16 (a b : Word) (c : Bool) (free : Byte) :
    WordSigned (adc16 a b c free).1 (a.toInt + b.toInt + c.toNat) (adc16 a b c free).2 :=
  wordSigned_of_signZero rfl rfl (adc16_pv_iff a b c free)

theorem wordSigned_sbc16 (a b : Word) (c : Bool) (free : Byte) :
    WordSigned (sbc16 a b c free).1 (a.toInt - b.toInt - c.toNat) (sbc16 a b c free).2 :=
  wordSigned_of_signZero rfl rfl (sbc16_pv_iff a b c free)

theorem sbc16_toNat (a b : Word) (c : Bool) (free : Byte) :
    ((sbc16 a b c free).1.toNat : Int) = ((a.toNat : Int) - b.toNat - c.toNat) % 65536 := by
  change ((BitVec.ofInt 16 ((a.toNat : Int) - b.toNat - c.toNat)).toNat : Int) = _
  rw [BitVec.toNat_ofInt]
  omega

theorem sbc16_h_iff (a b : Word) (c : Bool) (free : Byte) :
    (sbc16 a b c free).2.h = true ↔ a.toNat % 4096 < b.toNat % 4096 + c.toNat := by
  refine decide_eq_true_iff.trans ?_
  change _ - (c.toNat : Int) < 0 ↔ _
  omega

theorem sbc16_c_iff (a b : Word) (c : Bool) (free : Byte) :
    (sbc16 a b c free).2.c = true ↔ a.toNat < b.toNat + c.toNat := by
  refine decide_eq_true_iff.trans ?_
  change _ - (c.toNat : Int) < 0 ↔ _
  omega

theorem wordAdded_add16 {s u : State} {a b r : Word} {free : Byte} (hr : r = (add16 a b s.main.f free).1)
    (hf : u.main.f = (add16 a b s.main.f free).2) : WordAdded a b r s u := by
  unfold WordAdded KeepsSZP
  rw [hr, hf]
  exact ⟨BitVec.toNat_ofNat .., decide_eq_true_iff, rfl, decide_eq_true_iff, rfl, rfl, rfl⟩

theorem toNat_of_eq_add_one {v w : Word} (h : v = w + 1) : v.toNat = (w.toNat + 1) % 65536 := by
  rw [h, BitVec.toNat_add]
  rfl

theorem toNat_of_eq_sub_one {v w : Word} (h : v = w - 1) : v.toNat = (w.toNat + 65535) % 65536 := by
  rw [h, BitVec.toNat_sub']
  rfl

/-! ### A 16-bit operand written, and then F -/

section

variable {i : Instr} {s : State} {len : Word} {m1 : Byte} {cost : Count}

theorem Completes.mono {post post' : State → Prop} (h : Completes i s len m1 cost post)
    (himp : ∀ u, post u → post' u) : Completes i s len m1 cost post' := by
  obtain ⟨u, hexec, hpc, hcosts, hpost⟩ := h
  exact ⟨u, hexec, hpc, hcosts, himp u hpost⟩

theorem completes_setHL_setFlags {v : Word} {f : Flags}
    (hexec : exec i s = .next (((s.afterFetches (ownIndex i) len m1 cost).setPair .hl v).setFlags f)) :
    Completes i s len m1 cost fun u => u.pair .hl = v ∧ u.main.f = f ∧ OnlyHLAndFlags s u :=
  completes_of_keepsFetches hexec ⟨rfl, rfl, rfl, rfl⟩
    ⟨State.pair_setPair (s.afterFetches (ownIndex i) len m1 cost) .hl v, rfl, rfl, rfl, rfl, rfl⟩

theorem completes_setXY_setFlags {x : IndexReg} {v : Word} {f : Flags}
    (hexec : exec i s = .next (((s.afterFetches (ownIndex i) len m1 cost).setXY x v).setFlags f)) :
    Completes i s len m1 cost fun u => u.xy x = v ∧ u.main.f = f ∧ OnlyXYAndFlags s u x := by
  obtain ⟨hxy, hframe⟩ := (s.afterFetches (ownIndex i) len m1 cost).setXY_onlyXY x v
  exact completes_of_keepsFetches hexec ⟨by simp, by simp, by simp, by simp⟩
    ⟨State.xy_setXY _ x v, rfl, hxy, congrArg s.unflagged hframe⟩

end

end Sys2Proof.Machine

namespace Sys2Proof.Proofs

open Sys2Proof.Machine

/-- Settles O36: ADD, ADC and SBC write their result and then F, both from the exact arithmetic of `add16`, `adc16` and
`sbc16`, and INC and DEC are one write of the operand plus or minus 1. -/
theorem wordArithmetic : Obligations.WordArithmetic := by
  refine ⟨fun s p => ?add, fun s x p => ?addXY, fun s p => ?adc, fun s p => ?sbc,
    fun _ _ => Completes.mono (completes_setPair rfl) fun _ => And.imp_left toNat_of_eq_add_one,
    fun _ _ => Completes.mono (completes_setXY (exec_of_runXY (Eq.refl (execIncXY ..)) rfl)) fun _ =>
      And.imp_left toNat_of_eq_add_one,
    fun _ _ => Completes.mono (completes_setPair rfl) fun _ => And.imp_left toNat_of_eq_sub_one,
    fun _ _ => Completes.mono (completes_setXY (exec_of_runXY (Eq.refl (execDecXY ..)) rfl)) fun _ =>
      And.imp_left toNat_of_eq_sub_one⟩
  case add =>
    exact Completes.mono (completes_setHL_setFlags rfl) fun _ ⟨hv, hf, hframe⟩ => ⟨wordAdded_add16 hv hf, hframe⟩
  case addXY =>
    exact Completes.mono (completes_setXY_setFlags (exec_of_runXY (Eq.refl (execAddXYPair ..)) rfl))
      fun _ ⟨hv, hf, hframe⟩ => ⟨wordAdded_add16 hv hf, hframe⟩
  case adc =>
    refine Completes.mono (completes_setHL_setFlags rfl) fun u ⟨hv, hf, hframe⟩ => ?_
    rw [hv, hf]
    exact ⟨BitVec.toNat_ofNat .., wordSigned_adc16 .., decide_eq_true_iff, rfl, decide_eq_true_iff, hframe⟩
  case sbc =>
    refine Completes.mono (completes_setHL_setFlags rfl) fun u ⟨hv, hf, hframe⟩ => ?_
    rw [hv, hf]
    exact ⟨sbc16_toNat .., wordSigned_sbc16 .., sbc16_h_iff .., rfl, sbc16_c_iff .., hframe⟩

end Sys2Proof.Proofs
end

section
/-! PROOFS. The family of 47_rotate_shift_bit.md: the rotates and shifts as arithmetic on the number of a byte (R440 to
R452), the digit rotates (R453, R454), and BIT, SET and RES as statements about one bit (R455 to R457), in the operand
forms of R444. -/

namespace Sys2Proof.Machine

open Spec

/-! ### Bitwise operations as arithmetic -/

theorem getLsbD_eq_decide (v : Byte) (k : Nat) : v.getLsbD k = decide (v.toNat / 2 ^ k % 2 = 1) := by
  rw [← BitVec.testBit_toNat, Nat.testBit_eq_decide_div_mod_eq]

theorem getLsbD_zero_eq_decide (v : Byte) : v.getLsbD 0 = decide (v.toNat % 2 = 1) := by
  rw [getLsbD_eq_decide, Nat.pow_zero, Nat.div_one]

theorem toNat_shiftLeft_eq_mul (v : Byte) (k : Nat) : (v <<< k).toNat = v.toNat * 2 ^ k % 256 := by
  rw [BitVec.toNat_shiftLeft, Nat.shiftLeft_eq]

theorem toNat_shiftLeft_one (v : Byte) : (v <<< 1).toNat = 2 * v.toNat % 256 := by
  rw [toNat_shiftLeft_eq_mul, Nat.pow_one, Nat.mul_comm]

theorem toNat_shiftRight_eq_div (v : Byte) (k : Nat) : (v >>> k).toNat = v.toNat / 2 ^ k := by
  rw [BitVec.toNat_ushiftRight, Nat.shiftRight_eq_div_pow]

/-- The bitwise or of bytes that have no bit in common is their sum. -/
theorem toNat_or_of_mul {x y : Byte} {k m : Nat} (hx : x.toNat = 2 ^ k * m) (hy : y.toNat < 2 ^ k) :
    (x ||| y).toNat = x.toNat + y.toNat := by
  rw [BitVec.toNat_or, hx, Nat.two_pow_add_eq_or_of_lt hy]

theorem bitByte_toNat (c : Bool) : (BitVec.ofNat 8 (bit c) : Byte).toNat = c.toNat := by cases c <;> rfl

theorem toNat_shiftLeft_or_bit (v : Byte) (c : Bool) :
    ((v <<< 1) ||| BitVec.ofNat 8 (bit c)).toNat = 2 * v.toNat % 256 + c.toNat := by
  have hshift := toNat_shiftLeft_one v
  have hbit := bitByte_toNat c
  have hc := c.toNat_le
  rw [toNat_or_of_mul (k := 1) (m := v.toNat % 128) (by omega) (by omega), hshift, hbit]

theorem toNat_shiftRight_or_bit (v : Byte) (c : Bool) :
    ((v >>> 1) ||| (BitVec.ofNat 8 (bit c) <<< 7)).toNat = v.toNat / 2 + 128 * c.toNat := by
  have hv := v.isLt
  have hshift : (v >>> 1).toNat = v.toNat / 2 := toNat_shiftRight_eq_div v 1
  have hbit : (BitVec.ofNat 8 (bit c) <<< 7 : Byte).toNat = 128 * c.toNat := by cases c <;> rfl
  rw [BitVec.or_comm, toNat_or_of_mul (k := 7) hbit (by omega), hshift, hbit, Nat.add_comm]

theorem getLsbD_seven_toNat (v : Byte) : (v.getLsbD 7).toNat = v.toNat / 128 := by
  have hv := v.isLt
  have hbit : (v.getLsbD 7).toNat = v.toNat / 2 ^ 7 % 2 := Nat.toNat_testBit v.toNat 7
  omega

theorem getLsbD_zero_toNat (v : Byte) : (v.getLsbD 0).toNat = v.toNat % 2 := by
  have hbit : (v.getLsbD 0).toNat = v.toNat / 2 ^ 0 % 2 := Nat.toNat_testBit v.toNat 0
  omega

/-- The sign bit alone is bit 7 moved to its place. -/
theorem and_signBit_eq (v : Byte) : v &&& (0x80 : Byte) = BitVec.ofNat 8 (bit (v.getLsbD 7)) <<< 7 := by
  rw [show (0x80 : Byte) = BitVec.twoPow 8 7 from rfl, BitVec.and_twoPow]
  cases v.getLsbD 7 <;> rfl

/-! ### The rotates and shifts (R445 to R452) -/

theorem rotate8_fst_toNat (op : RotOp) (v : Byte) (c : Bool) :
    (rotate8 op v c).1.toNat = rotateValue op v c := by
  cases op with
  | rlc => exact (toNat_shiftLeft_or_bit v _).trans (by rw [getLsbD_seven_toNat]; rfl)
  | rrc => exact (toNat_shiftRight_or_bit v _).trans (by rw [getLsbD_zero_toNat]; rfl)
  | rl => exact toNat_shiftLeft_or_bit v c
  | rr => exact toNat_shiftRight_or_bit v c
  | sla => exact toNat_shiftLeft_one v
  | sra =>
    change ((v >>> 1) ||| (v &&& (0x80 : Byte))).toNat = v.toNat / 2 + 128 * (v.toNat / 128)
    rw [and_signBit_eq, toNat_shiftRight_or_bit, getLsbD_seven_toNat]
  | sll => exact toNat_shiftLeft_or_bit v true
  | srl => exact toNat_shiftRight_eq_div v 1

theorem rotate8_fst (op : RotOp) (v : Byte) (c : Bool) :
    (rotate8 op v c).1 = BitVec.ofNat 8 (rotateValue op v c) := by
  rw [← rotate8_fst_toNat, BitVec.ofNat_toNat, BitVec.setWidth_eq]

theorem rotate8_snd (op : RotOp) (v : Byte) (c : Bool) : (rotate8 op v c).2 = rotateCarry op v := by
  cases op with
  | rlc | rl | sla | sll => exact getLsbD_seven_eq_decide v
  | rrc | rr | sra | srl => exact getLsbD_zero_eq_decide v

theorem signZeroParity_setSZP (f : Flags) (v : Byte) : SignZeroParity v (f.setSZP v) :=
  ⟨signZero_setSZ f v, parity_iff_ones_even v⟩

theorem rotateFlags_rotFlagged {s t : State} (op : RotOp) (v : Byte) (hf : t.main.f = s.main.f) :
    RotateFlags op v s (t.rotFlagged op v) := by
  rw [RotateFlags, ← hf, ← rotate8_fst]
  exact ⟨signZeroParity_setSZP t.main.f _, rfl, rfl, rotate8_snd op v t.main.f.c⟩

theorem State.rotFlagged_setReg (s : State) (op : RotOp) (v : Byte) (q : Reg8) (w : Byte) :
    (s.rotFlagged op v).setReg q w = (s.setReg q w).rotFlagged op v := by
  cases q <;> rfl

/-! ### The digit rotates (R453, R454) -/

theorem toNat_lowDigit (v : Byte) : (v &&& 0x0F).toNat = v.toNat % 16 := by
  rw [BitVec.toNat_and]
  exact Nat.and_two_pow_sub_one_eq_mod v.toNat 4

theorem toNat_highDigit (v : Byte) : (v &&& 0xF0).toNat = v.toNat / 16 * 16 := by
  have hv := v.isLt
  rw [show (0xF0 : Byte) = BitVec.allOnes 8 <<< 4 from rfl, ← BitVec.shiftLeft_ushiftRight, toNat_shiftLeft_eq_mul,
    toNat_shiftRight_eq_div]
  omega

theorem toNat_shiftLeft_digit (v : Byte) : (v <<< 4).toNat = v.toNat % 16 * 16 := by
  rw [toNat_shiftLeft_eq_mul]
  omega

theorem toNat_lowDigit_shiftLeft (v : Byte) : ((v &&& 0x0F) <<< 4).toNat = v.toNat % 16 * 16 := by
  rw [toNat_shiftLeft_digit, toNat_lowDigit, Nat.mod_mod]

theorem toNat_shiftRight_digit (v : Byte) : (v >>> 4).toNat = v.toNat / 16 := toNat_shiftRight_eq_div v 4

/-- A byte put together from a high digit in its place and a low digit. -/
theorem toNat_or_digits {x y : Byte} {m n : Nat} (hx : x.toNat = m * 16) (hy : y.toNat = n) (hn : n < 16) :
    (x ||| y).toNat = m * 16 + n := by
  subst hy
  rw [toNat_or_of_mul (k := 4) (m := m) (by omega) hn, hx]

/-! ### The bits that BIT, SET and RES name (R455 to R457) -/

theorem getLsbD_cast_one_shiftLeft {k : Nat} (hk : k < 8) (b : BitVec 3) :
    ((1 <<< b.toNat : Nat) : Byte).getLsbD k = decide (k = b.toNat) := by
  rw [BitVec.natCast_eq_ofNat, BitVec.getLsbD_ofNat, decide_eq_true hk, Bool.true_and, Nat.one_shiftLeft,
    Nat.testBit_two_pow]
  exact decide_eq_decide.2 eq_comm

theorem bitWritten_setBit (b : BitVec 3) (v : Byte) : BitWritten true b v (setBit b v) := by
  intro k hk
  rw [setBit, BitVec.getLsbD_or, getLsbD_cast_one_shiftLeft hk]
  by_cases h : k = b.toNat <;> simp [h]

theorem bitWritten_resetBit (b : BitVec 3) (v : Byte) : BitWritten false b v (resetBit b v) := by
  intro k hk
  have hones : ((0xFF : Nat) : Byte).getLsbD k = true :=
    (BitVec.getLsbD_allOnes (v := 8)).trans (decide_eq_true hk)
  rw [resetBit, BitVec.getLsbD_and, BitVec.getLsbD_xor, hones, getLsbD_cast_one_shiftLeft hk]
  by_cases h : k = b.toNat <;> simp [h]

theorem not_getLsbD_eq_true_iff (v : Byte) (k : Nat) : (!v.getLsbD k) = true ↔ v.toNat / 2 ^ k % 2 = 0 := by
  rw [getLsbD_eq_decide, Bool.not_eq_true', decide_eq_false_iff_not]
  omega

/-! ### Instructions whose effect is one of these updates -/

theorem State.reg_writeByte (s : State) (a : Word) (v : Byte) (q : Reg8) : (s.writeByte a v).reg q = s.reg q :=
  congrArg (fun g => RegSet.get g q) (s.writeByte_main a v)

theorem State.reg_writeByte_setReg_of_ne (s : State) (a : Word) (v : Byte) {q k : Reg8} (hk : k ≠ q) (w : Byte) :
    ((s.writeByte a v).setReg q w).reg k = s.reg k := by
  rw [State.reg_setReg, if_neg hk, State.reg_writeByte]

theorem State.f_writeByte_setReg (s : State) (a : Word) (v : Byte) (q : Reg8) (w : Byte) :
    ((s.writeByte a v).setReg q w).main.f = s.main.f :=
  (RegSet.set_f ..).trans (congrArg RegSet.f (s.writeByte_main a v))

theorem State.reg_setFlags (s : State) (f : Flags) (q : Reg8) : (s.setFlags f).reg q = s.reg q := by cases q <;> rfl

section

variable {i : Instr} {s : State} {len : Word} {m1 : Byte} {cost : Count}

/-- A store and then a register: the two leave each other's operands alone. -/
theorem completes_writeByte_setReg {a : Word} {v w : Byte} {q : Reg8}
    (hexec : exec i s = .next (((s.afterFetches (ownIndex i) len m1 cost).writeByte a v).setReg q w)) :
    Completes i s len m1 cost fun u =>
      u.reg q = w ∧ Stored s u a v ∧ (∀ k, k ≠ q → u.reg k = s.reg k) ∧ u.main.f = s.main.f ∧
        { s.unfetched u with main := s.main, mem := s.mem } = s := by
  have hframe := (s.afterFetches (ownIndex i) len m1 cost).writeByte_frame a v
  exact completes_of_keepsFetches hexec ⟨by simp, by simp, by simp, by simp⟩
    ⟨(State.reg_setReg ..).trans (if_pos rfl), State.stored_writeByte _ a v,
      fun _ hk => State.reg_writeByte_setReg_of_ne _ a v hk w, State.f_writeByte_setReg _ a v q w,
      congrArg (fun t => { s.unfetched t with main := s.main }) hframe⟩

/-- The same with F set after them; what is known of the flags may rest on F before they are set. -/
theorem completes_writeByte_setReg_setFlags {a : Word} {v w : Byte} {q : Reg8} {f : Flags} {P : State → Prop}
    (hexec : exec i s =
      .next ((((s.afterFetches (ownIndex i) len m1 cost).writeByte a v).setReg q w).setFlags f))
    (hflags : (((s.afterFetches (ownIndex i) len m1 cost).writeByte a v).setReg q w).main.f = s.main.f →
      P ((((s.afterFetches (ownIndex i) len m1 cost).writeByte a v).setReg q w).setFlags f)) :
    Completes i s len m1 cost fun u =>
      u.reg q = w ∧ Stored s u a v ∧ P u ∧ (∀ k, k ≠ q → u.reg k = s.reg k) ∧
        { s.unflagged u with main := s.main, mem := s.mem } = s := by
  have hframe := (s.afterFetches (ownIndex i) len m1 cost).writeByte_frame a v
  exact completes_of_keepsFetches hexec ⟨by simp, by simp, by simp, by simp⟩
    ⟨(State.reg_setFlags ..).trans ((State.reg_setReg ..).trans (if_pos rfl)), State.stored_writeByte _ a v,
      hflags (State.f_writeByte_setReg ..),
      fun _ hk => (State.reg_setFlags ..).trans (State.reg_writeByte_setReg_of_ne _ a v hk w),
      congrArg (fun t => { s.unfetched t with main := s.main, draws := s.draws }) hframe⟩

/-! ### The accumulator rotates (R440 to R443) -/

theorem completes_rotateA {op : RotOp} (hexec : exec i s = rotateA op s) (hown : ownIndex i = none) :
    Completes i s 1 1 4 fun u =>
      u.main.a.toNat = rotateValue op s.main.a s.main.f.c ∧ u.main.f.c = rotateCarry op s.main.a ∧
        u.main.f.h = false ∧ u.main.f.n = false ∧ KeepsSZP s u ∧ OnlyRegAndFlags s u .a := by
  refine completes_of_keepsFetches hexec (hown ▸ ⟨rfl, rfl, rfl, rfl⟩) ⟨rotate8_fst_toNat op s.main.a s.main.f.c,
    rotate8_snd op s.main.a s.main.f.c, rfl, rfl, ⟨rfl, rfl, rfl⟩, onlyRegAndFlags_fetched_setReg_setFlags ..⟩

end

/-! ### The rotates and shifts in their operand forms (R444) -/

/-- The list of the eight, by the constructors of each form. -/
theorem rotates_eq : rotates = [RotOp.rlc, .rrc, .rl, .rr, .sla, .sra, .sll, .srl].map fun op =>
    (op, fun q => rotR q op, rotIndHL op, fun x d => rotIndXY x d op, fun x d q => rotIndXYR x d q op) := rfl

theorem exec_rotR (op : RotOp) (s : State) (q : Reg8) : exec (rotR q op) s =
    .next (((s.afterFetches (ownIndex (rotR q op)) 2 2 8).setReg q (s.rotated op (s.reg q))).rotFlagged op
      (s.reg q)) := by
  cases op <;> rfl

theorem exec_rotIndHL (op : RotOp) (s : State) : exec (rotIndHL op) s =
    .next (((s.afterFetches (ownIndex (rotIndHL op)) 2 2 15).writeByte (s.pair .hl)
      (s.rotated op (s.readByte (s.pair .hl)))).rotFlagged op (s.readByte (s.pair .hl))) := by
  cases op <;> rfl

theorem exec_rotIndXY (op : RotOp) (s : State) (x : IndexReg) (d : Byte) : exec (rotIndXY x d op) s =
    .next (((s.afterFetches (ownIndex (rotIndXY x d op)) 4 2 23).writeByte (s.ea x d)
      (s.rotated op (s.readByte (s.ea x d)))).rotFlagged op (s.readByte (s.ea x d))) := by
  cases op <;> exact exec_of_runXY (Eq.refl (rotateAtXY ..)) rfl

/-- The copy form writes the register last, which comes to the same as writing it before F. -/
theorem exec_rotIndXYR (op : RotOp) (s : State) (x : IndexReg) (d : Byte) (q : Reg8) :
    exec (rotIndXYR x d q op) s =
      .next ((((s.afterFetches (ownIndex (rotIndXYR x d q op)) 4 2 23).writeByte (s.ea x d)
        (s.rotated op (s.readByte (s.ea x d)))).setReg q (s.rotated op (s.readByte (s.ea x d)))).rotFlagged op
          (s.readByte (s.ea x d))) := by
  have hrun : exec (rotIndXYR x d q op) s = rotateAtXYCopy op x d q s := by cases op <;> rfl
  have hown : ownIndex (rotIndXYR x d q op) = some x := by cases op <;> rfl
  rw [hown, ← State.rotFlagged_setReg]
  exact exec_of_runXY hrun rfl

theorem completes_rotR (op : RotOp) (s : State) (q : Reg8) : Completes (rotR q op) s 2 2 8 fun u =>
    (u.reg q).toNat = rotateValue op (s.reg q) s.main.f.c ∧ RotateFlags op (s.reg q) s u ∧
      OnlyRegAndFlags s u q :=
  (completes_setReg_setFlags (exec_rotR op s q) (rotateFlags_rotFlagged op _)).mono
    fun _ ⟨hv, hu⟩ => ⟨hv ▸ rotate8_fst_toNat .., hu⟩

theorem completes_rotIndHL (op : RotOp) (s : State) : Completes (rotIndHL op) s 2 2 15 fun u =>
    Stored s u (s.pair .hl) (BitVec.ofNat 8 (rotateValue op (s.readByte (s.pair .hl)) s.main.f.c)) ∧
      RotateFlags op (s.readByte (s.pair .hl)) s u ∧ OnlyMemAndFlags s u := by
  rw [← rotate8_fst]
  exact completes_writeByte_setFlags (exec_rotIndHL op s) (rotateFlags_rotFlagged op _)

theorem completes_rotIndXY (op : RotOp) (s : State) (x : IndexReg) (d : Byte) :
    Completes (rotIndXY x d op) s 4 2 23 fun u =>
      Stored s u (s.ea x d) (BitVec.ofNat 8 (rotateValue op (s.readByte (s.ea x d)) s.main.f.c)) ∧
        RotateFlags op (s.readByte (s.ea x d)) s u ∧ OnlyMemAndFlags s u := by
  rw [← rotate8_fst]
  exact completes_writeByte_setFlags (exec_rotIndXY op s x d) (rotateFlags_rotFlagged op _)

theorem completes_rotIndXYR (op : RotOp) (s : State) (x : IndexReg) (d : Byte) (q : Reg8) :
    Completes (rotIndXYR x d q op) s 4 2 23 fun u =>
      Stored s u (s.ea x d) (BitVec.ofNat 8 (rotateValue op (s.readByte (s.ea x d)) s.main.f.c)) ∧
        RotateFlags op (s.readByte (s.ea x d)) s u ∧
        (u.reg q).toNat = rotateValue op (s.readByte (s.ea x d)) s.main.f.c ∧
        (∀ k, k ≠ q → u.reg k = s.reg k) ∧ { s.unflagged u with main := s.main, mem := s.mem } = s := by
  rw [← rotate8_fst]
  exact (completes_writeByte_setReg_setFlags (exec_rotIndXYR op s x d q) (rotateFlags_rotFlagged op _)).mono
    fun _ ⟨hv, hstored, hflags, hframe⟩ => ⟨hstored, hflags, hv ▸ rotate8_fst_toNat .., hframe⟩

/-! ### The digit rotates, and BIT -/

section

variable {i : Instr} {s : State} {len : Word} {m1 : Byte} {cost : Count}

/-- What RLD and RRD have in common: a byte is stored at (HL), and A and F are written. -/
theorem completes_digitRotate {a : Word} {v w : Byte} {m n : Nat} (hv : v.toNat = m) (hw : w.toNat = n)
    (hexec : exec i s = .next ((((s.afterFetches (ownIndex i) len m1 cost).writeByte a v).setReg .a w).setFlags
      (inFlags s.main.f w s.freeByte))) :
    Completes i s len m1 cost fun u =>
      Stored s u a (BitVec.ofNat 8 m) ∧ u.main.a.toNat = n ∧ SignZeroParity u.main.a u.main.f ∧
        u.main.f.h = false ∧ u.main.f.n = false ∧ u.main.f.c = s.main.f.c ∧ (∀ k, k ≠ .a → u.reg k = s.reg k) ∧
        { s.unflagged u with main := s.main, mem := s.mem } = s := by
  subst hv hw
  rw [BitVec.ofNat_toNat, BitVec.setWidth_eq]
  refine (completes_writeByte_setReg_setFlags (P := fun u => u.main.f = inFlags s.main.f w s.freeByte) hexec
    fun _ => rfl).mono fun u ⟨ha, hstored, hf, hframe⟩ => ?_
  have ha : u.main.a = w := ha
  rw [ha, hf]
  exact ⟨hstored, rfl, signZeroParity_setSZP s.main.f w, rfl, rfl, rfl, hframe⟩

theorem completes_bitFlagged {b : BitVec 3} {v : Byte}
    (hexec : exec i s = .next ((s.afterFetches (ownIndex i) len m1 cost).bitFlagged b v)) :
    Completes i s len m1 cost (Tested b v s) :=
  completes_of_keepsFetches hexec ⟨rfl, rfl, rfl, rfl⟩ ⟨not_getLsbD_eq_true_iff v b.toNat, rfl, rfl, rfl, rfl⟩

/-! ### SET and RES in their operand forms (R444)

Stated for any change `f` of a byte that writes one bit. -/

variable {w : Bool} {b : BitVec 3} {f : Byte → Byte} (hbit : ∀ v, BitWritten w b v (f v))
include hbit

theorem completes_changeReg {q : Reg8}
    (hexec : exec i s = .next ((s.afterFetches (ownIndex i) len m1 cost).setReg q (f (s.reg q)))) :
    Completes i s len m1 cost fun u => BitWritten w b (s.reg q) (u.reg q) ∧ OnlyReg s u q :=
  (completes_setReg hexec).mono fun _ ⟨hv, hframe⟩ => ⟨hv ▸ hbit _, hframe⟩

theorem completes_changeByte {a : Word}
    (hexec : exec i s = .next ((s.afterFetches (ownIndex i) len m1 cost).writeByte a (f (s.readByte a)))) :
    Completes i s len m1 cost fun u =>
      ∃ r, BitWritten w b (s.readByte a) r ∧ Stored s u a r ∧ OnlyMem s u :=
  (completes_writeByte hexec).mono fun _ h => ⟨_, hbit _, h⟩

theorem completes_changeByteCopy {a : Word} {q : Reg8}
    (hexec : exec i s = .next (((s.afterFetches (ownIndex i) len m1 cost).writeByte a (f (s.readByte a))).setReg q
      (f (s.readByte a)))) :
    Completes i s len m1 cost fun u =>
      BitWritten w b (s.readByte a) (u.reg q) ∧ Stored s u a (u.reg q) ∧ (∀ k, k ≠ q → u.reg k = s.reg k) ∧
        u.main.f = s.main.f ∧ { s.unfetched u with main := s.main, mem := s.mem } = s :=
  (completes_writeByte_setReg hexec).mono fun _ ⟨hv, hu⟩ => hv.symm ▸ ⟨hbit _, hu⟩

end

end Sys2Proof.Machine

namespace Sys2Proof.Proofs

open Sys2Proof.Machine Sys2Proof.Spec

/-- Settles O38: form by form, for all eight operations at once. -/
theorem rotatesAndShifts : Obligations.RotatesAndShifts := by
  rw [Obligations.RotatesAndShifts, rotates_eq]
  exact List.forall_mem_map.2 fun op _ s =>
    ⟨completes_rotR op s, completes_rotIndHL op s, completes_rotIndXY op s, completes_rotIndXYR op s⟩

/-- Settles O39: each byte is put together from a high and a low digit, taken from A and from the byte at HL. -/
theorem digitRotates : Obligations.DigitRotates := by
  have hlow (v : Byte) : v.toNat % 16 < 16 := Nat.mod_lt _ (by decide)
  have hhigh (v : Byte) : v.toNat / 16 < 16 := Nat.div_lt_of_lt_mul v.isLt
  exact ⟨fun s => completes_digitRotate
      (toNat_or_digits (toNat_shiftLeft_digit _) (toNat_lowDigit s.main.a) (hlow _))
      (toNat_or_digits (toNat_highDigit s.main.a) (toNat_shiftRight_digit _) (hhigh _)) rfl,
    fun s => completes_digitRotate
      (toNat_or_digits (toNat_lowDigit_shiftLeft s.main.a) (toNat_shiftRight_digit _) (hhigh _))
      (toNat_or_digits (toNat_highDigit s.main.a) (toNat_lowDigit _) (hlow _)) rfl⟩

/-- Settles O37: result and carry are those of the CB rotates of A (R445 to R448). -/
theorem accumulatorRotates : Obligations.AccumulatorRotates := by
  intro s
  simp only [List.forall_mem_cons]
  exact ⟨completes_rotateA rfl rfl, completes_rotateA rfl rfl, completes_rotateA rfl rfl, completes_rotateA rfl rfl,
    List.forall_mem_nil _⟩

/-- Settles O40: the forms differ in the byte tested, and the duplicates do not even in that. -/
theorem bitTests : Obligations.BitTests :=
  ⟨fun _ _ _ => completes_bitFlagged rfl, fun _ _ => completes_bitFlagged rfl,
    fun _ _ _ _ => completes_bitFlagged (exec_of_runXY (Eq.refl (bitAtXY ..)) rfl),
    fun _ _ _ _ _ => completes_bitFlagged (exec_of_runXY (Eq.refl (bitAtXY ..)) rfl)⟩

/-- Settles O41: the two are changes of a byte that write one bit, in the forms that any such change has. -/
theorem bitSetAndReset : Obligations.BitSetAndReset := by
  simp only [Obligations.BitSetAndReset, bitWrites, List.forall_mem_cons]
  refine ⟨fun s b => ?set, fun s b => ?res, List.forall_mem_nil _⟩
  case set =>
    have hbit := bitWritten_setBit b
    exact ⟨fun _ => completes_changeReg hbit rfl, completes_changeByte hbit rfl,
      fun _ _ => completes_changeByte hbit (exec_of_runXY (Eq.refl (changeAtXY ..)) rfl),
      fun _ _ _ => completes_changeByteCopy hbit (exec_of_runXY (Eq.refl (changeAtXYCopy ..)) rfl)⟩
  case res =>
    have hbit := bitWritten_resetBit b
    exact ⟨fun _ => completes_changeReg hbit rfl, completes_changeByte hbit rfl,
      fun _ _ => completes_changeByte hbit (exec_of_runXY (Eq.refl (changeAtXY ..)) rfl),
      fun _ _ _ => completes_changeByteCopy hbit (exec_of_runXY (Eq.refl (changeAtXYCopy ..)) rfl)⟩

end Sys2Proof.Proofs
end

section
/-! PROOFS. The cycle counter (R60, R721). T-states charged before an instruction come to the same as T-states charged
after it: every operation commutes with `State.charged`, because none reads the counter. Of the boundary actions only
the throttle reads it (R651), and it does nothing at unthrottled speed. -/

namespace Sys2Proof.Machine

/-! ### Reads and updates of a state whose counter was charged -/

section

variable (s : State) (k : Count)

theorem State.charged_charged (c : Count) : (s.charged k).charged c = (s.charged c).charged k := by
  simp only [State.charged, add_right_comm]

@[simp] theorem State.charged_fetched (len : Word) (m1 : Byte) (c : Count) :
    (s.charged k).fetched len m1 c = (s.fetched len m1 c).charged k :=
  State.charged_charged { s with pc := s.pc + len, r := s.r + m1, pfx := none } k c

@[simp] theorem State.charged_takePrefix (x : IndexReg) : (s.charged k).takePrefix x = (s.takePrefix x).charged k :=
  State.charged_charged { s with pc := s.pc + 1, r := s.r + 1, pfx := some x } k 4

@[simp] theorem State.charged_ownPrefix (x : IndexReg) : (s.charged k).ownPrefix x = (s.ownPrefix x).charged k := by
  rw [State.ownPrefix, State.ownPrefix, State.charged_takePrefix, apply_ite (State.charged · k)]
  rfl

@[simp] theorem State.charged_reg (q : Reg8) : (s.charged k).reg q = s.reg q := rfl
@[simp] theorem State.charged_pair (p : Pair) : (s.charged k).pair p = s.pair p := rfl
@[simp] theorem State.charged_stackPair (q : StackPair) : (s.charged k).stackPair q = s.stackPair q := rfl
@[simp] theorem State.charged_xy (x : IndexReg) : (s.charged k).xy x = s.xy x := rfl
@[simp] theorem State.charged_half (x : IndexReg) (h : Half) : (s.charged k).half x h = s.half x h := rfl
@[simp] theorem State.charged_regOrHalf (x : IndexReg) (q : Reg8) : (s.charged k).regOrHalf x q = s.regOrHalf x q := rfl
@[simp] theorem State.charged_indexPair (x : IndexReg) (p : IndexPair) :
    (s.charged k).indexPair x p = s.indexPair x p := rfl
@[simp] theorem State.charged_ea (x : IndexReg) (d : Byte) : (s.charged k).ea x d = s.ea x d := rfl
@[simp] theorem State.charged_readByte (a : Word) : (s.charged k).readByte a = s.readByte a := rfl
@[simp] theorem State.charged_readWord (a : Word) : (s.charged k).readWord a = s.readWord a := rfl
@[simp] theorem State.charged_popValue : (s.charged k).popValue = s.popValue := rfl
@[simp] theorem State.charged_freeByte : (s.charged k).freeByte = s.freeByte := rfl
@[simp] theorem State.charged_portRead (hi lo : Byte) : (s.charged k).portRead hi lo = s.portRead hi lo := rfl
@[simp] theorem State.charged_rotated (op : RotOp) (v : Byte) : (s.charged k).rotated op v = s.rotated op v := rfl

@[simp] theorem State.charged_drawn : (s.charged k).drawn = s.drawn.charged k := rfl
@[simp] theorem State.charged_setFlags (f : Flags) : (s.charged k).setFlags f = (s.setFlags f).charged k := rfl
@[simp] theorem State.charged_setReg (q : Reg8) (v : Byte) : (s.charged k).setReg q v = (s.setReg q v).charged k := rfl
@[simp] theorem State.charged_popped : (s.charged k).popped = s.popped.charged k := rfl
@[simp] theorem State.charged_portWrite (hi lo v : Byte) :
    (s.charged k).portWrite hi lo v = (s.portWrite hi lo v).charged k := rfl
@[simp] theorem State.charged_jumpBy (e : Byte) : (s.charged k).jumpBy e = (s.jumpBy e).charged k := rfl
@[simp] theorem State.charged_returned : (s.charged k).returned = s.returned.charged k := rfl
@[simp] theorem State.charged_returnFromInterrupt :
    (s.charged k).returnFromInterrupt = s.returnFromInterrupt.charged k := rfl
@[simp] theorem State.charged_loadSpecial (v : Byte) : (s.charged k).loadSpecial v = (s.loadSpecial v).charged k := rfl
@[simp] theorem State.charged_aluA (op : AluOp) (v : Byte) : (s.charged k).aluA op v = (s.aluA op v).charged k := rfl
@[simp] theorem State.charged_incFlagged (v : Byte) : (s.charged k).incFlagged v = (s.incFlagged v).charged k := rfl
@[simp] theorem State.charged_decFlagged (v : Byte) : (s.charged k).decFlagged v = (s.decFlagged v).charged k := rfl
@[simp] theorem State.charged_rotFlagged (op : RotOp) (v : Byte) :
    (s.charged k).rotFlagged op v = (s.rotFlagged op v).charged k := rfl
@[simp] theorem State.charged_bitFlagged (b : BitVec 3) (v : Byte) :
    (s.charged k).bitFlagged b v = (s.bitFlagged b v).charged k := rfl
@[simp] theorem State.charged_inFlagged (v : Byte) : (s.charged k).inFlagged v = (s.inFlagged v).charged k := rfl
@[simp] theorem State.charged_negated : (s.charged k).negated = s.negated.charged k := rfl

@[simp] theorem State.charged_repeatIf (again : Bool) :
    (s.charged k).repeatIf again = (s.repeatIf again).charged k := by
  cases again
  · rfl
  · exact State.charged_charged { s with pc := s.pc - 2 } k 5

@[simp] theorem State.charged_writeByte (a : Word) (v : Byte) :
    (s.charged k).writeByte a v = (s.writeByte a v).charged k := by
  rw [State.writeByte, State.writeByte, apply_ite (State.charged · k)]
  rfl

@[simp] theorem State.charged_writeWord (a v : Word) : (s.charged k).writeWord a v = (s.writeWord a v).charged k := by
  simp only [State.writeWord, State.charged_writeByte]

@[simp] theorem State.charged_push16 (v : Word) : (s.charged k).push16 v = (s.push16 v).charged k :=
  State.charged_writeWord { s with sp := s.sp - 2 } k (s.sp - 2) v


@[simp] theorem State.charged_setPair (p : Pair) (v : Word) :
    (s.charged k).setPair p v = (s.setPair p v).charged k := by cases p <;> rfl

@[simp] theorem State.charged_setStackPair (q : StackPair) (v : Word) :
    (s.charged k).setStackPair q v = (s.setStackPair q v).charged k := by cases q <;> rfl

@[simp] theorem State.charged_setXY (x : IndexReg) (v : Word) :
    (s.charged k).setXY x v = (s.setXY x v).charged k := by cases x <;> rfl

@[simp] theorem State.charged_setHalf (x : IndexReg) (h : Half) (v : Byte) :
    (s.charged k).setHalf x h v = (s.setHalf x h v).charged k := by cases x <;> cases h <;> rfl


@[simp] theorem State.charged_blockMove (back : Bool) :
    (s.charged k).blockMove back = (s.blockMove back).charged k := by
  unfold State.blockMove
  rw [State.charged_writeByte]
  rfl

@[simp] theorem State.charged_blockIn (back : Bool) :
    (s.charged k).blockIn back = (s.blockIn back).charged k := by
  unfold State.blockIn
  rw [State.charged_writeByte]
  rfl

@[simp] theorem State.charged_blockSearch (back : Bool) :
    (s.charged k).blockSearch back = (s.blockSearch back).charged k := rfl

@[simp] theorem State.charged_blockOut (back : Bool) :
    (s.charged k).blockOut back = (s.blockOut back).charged k := rfl

@[simp] theorem State.charged_callTo (target : Word) :
    (s.charged k).callTo target = (s.callTo target).charged k := by
  unfold State.callTo
  rw [State.charged_push16]
  rfl

/-- The effect of a conditional instruction. -/
theorem State.charged_ite {c : Prop} [Decidable c] {t u t' u' : State} (ht : t' = t.charged k)
    (hu : u' = u.charged k) : (if c then t' else u') = (if c then t else u).charged k := by
  rw [ht, hu, apply_ite (State.charged · k)]

@[simp] theorem State.charged_acceptInterrupt : (s.charged k).acceptInterrupt = s.acceptInterrupt.charged k := by
  unfold State.acceptInterrupt
  rw [State.charged_pc, State.charged_push16, State.charged_tstates, add_right_comm]
  rfl

end

/-- Any value of the counter is reached by a charge. -/
theorem State.charged_sub_tstates (s : State) (n : Count) : s.charged (n - s.tstates) = { s with tstates := n } := by
  rw [State.charged, BitVec.add_comm, BitVec.sub_add_cancel]

/-! ### Instructions -/

/-- The two bytes that select a map apart, an instruction's effect is a row of updates, each of which commutes with a
charge. -/
theorem exec_charged_of_ne (i : Instr) (s : State) (k : Count) (hcb : i ≠ .prefixCB) (hed : i ≠ .prefixED) :
    Answers (fun u => exec i (s.charged k) = .next (u.charged k)) (exec i s) := by
  cases i
  case prefixCB => exact absurd rfl hcb
  case prefixED => exact absurd rfl hed
  case jpCond =>
    exact .of_next (congrArg Host.Outcome.next (State.charged_ite k (by rw [State.charged_fetched]; rfl) (by simp)))
  case jrCond | callCond | retCond =>
    exact .of_next (congrArg Host.Outcome.next (State.charged_ite k (by simp [State.charged_charged]) (by simp)))
  case djnz =>
    exact .of_next (congrArg Host.Outcome.next (State.charged_ite k (by simp) (by simp [State.charged_charged])))
  -- the effects that are a record update with no name of its own
  case exDEHL | exAFAF | exx | halt | di | ei | im0 | im0Dup | im1 | im1Dup | im2 | im2Dup | jp | jpHL | ldIA | ldRA
      | ldSPHL =>
    exact .of_next (congrArg Host.Outcome.next (by rw [State.charged_fetched]; rfl))
  case ldSPXY | jpXY =>
    exact .of_next (congrArg Host.Outcome.next (by rw [State.charged_ownPrefix, State.charged_fetched]; rfl))
  case prefixIndex | prefixCBAfterIndex | prefixEDAfterIndex | prefixRestart | ignoredIndexPrefix =>
    exact .of_next (congrArg Host.Outcome.next (s.charged_takePrefix k _))
  all_goals exact .of_next (congrArg Host.Outcome.next (by simp [State.bcLeft, State.bLeft]))

theorem exec_charged_of_multibyte {i : Instr} (hi : 2 ≤ (encode i).length) (s : State) (k : Count) :
    Answers (fun u => exec i (s.charged k) = .next (u.charged k)) (exec i s) :=
  exec_charged_of_ne i s k (ne_of_encode_length hi rfl) (ne_of_encode_length hi rfl)

theorem two_le_length_encode_decodeCB (op2 : Byte) : 2 ≤ (encode (decodeCB op2)).length := by
  obtain ⟨b, hb⟩ := encode_decodeCB op2
  simp [hb]

theorem two_le_length_encode_decodeXYCB (x : IndexReg) (d op2 : Byte) :
    2 ≤ (encode (decodeXYCB x d op2)).length := by
  obtain ⟨b, hb⟩ := encode_decodeXYCB x d op2
  simp [hb]

theorem two_le_length_encode_decodeED (op2 lo hi : Byte) : 2 ≤ (encode (decodeED op2 lo hi)).length := by
  obtain ⟨b, bs, hb⟩ := encode_decodeED op2 lo hi
  simp [hb]

/-- The byte 0xCB runs the same instruction whatever the counter. -/
theorem exec_prefixCB_charged (s : State) (k : Count) :
    Answers (fun u => exec .prefixCB (s.charged k) = .next (u.charged k)) (exec .prefixCB s) := by
  obtain hpfx | ⟨x, hpfx⟩ := Option.eq_none_or_eq_some s.pfx
  · rw [exec_prefixCB_of_none hpfx, exec_prefixCB_of_none (s := s.charged k) hpfx]
    exact exec_charged_of_multibyte (two_le_length_encode_decodeCB _) s k
  · rw [exec_prefixCB_of_some hpfx, exec_prefixCB_of_some (s := s.charged k) hpfx]
    exact exec_charged_of_multibyte (two_le_length_encode_decodeXYCB x _ _) s k

/-- So does the byte 0xED. -/
theorem exec_prefixED_charged (s : State) (k : Count) :
    Answers (fun u => exec .prefixED (s.charged k) = .next (u.charged k)) (exec .prefixED s) := by
  rw [exec_prefixED, exec_prefixED]
  exact exec_charged_of_multibyte (two_le_length_encode_decodeED _ _ _) s k

/-- Every instruction commutes with a charge. -/
theorem exec_charged (i : Instr) (s : State) (k : Count) :
    Answers (fun u => exec i (s.charged k) = .next (u.charged k)) (exec i s) := by
  by_cases hcb : i = .prefixCB
  · exact hcb ▸ exec_prefixCB_charged s k
  by_cases hed : i = .prefixED
  · exact hed ▸ exec_prefixED_charged s k
  exact exec_charged_of_ne i s k hcb hed

/-! ### Boundary actions and the step -/

/-- `v` is `u` but for the cycle counter. -/
def SameButCount (u v : State) : Prop := ∃ m, v = { u with tstates := m }

theorem SameButCount.of_charged (u : State) (k : Count) : SameButCount u (u.charged k) := ⟨u.tstates + k, rfl⟩

/-- A reset zeroes the counter, and the other outcomes of a sampling commute with a charge (R604 to R606). -/
theorem State.sampleRequest_charged (s : State) (k : Count) :
    SameButCount s.sampleRequest (s.charged k).sampleRequest := by
  cases hreq : s.request with
  | idle =>
    rw [State.sampleRequest_idle hreq, State.sampleRequest_idle (s := s.charged k) hreq]
    exact .of_charged s k
  | pendingReset =>
    rw [State.sampleRequest_reset hreq, State.sampleRequest_reset (s := s.charged k) hreq]
    exact ⟨0, rfl⟩
  | pendingInterrupt =>
    cases hiff : s.iff1 with
    | false =>
      rw [State.sampleRequest_dropped hreq hiff, State.sampleRequest_dropped (s := s.charged k) hreq hiff]
      exact .of_charged { s with request := .idle } k
    | true =>
      rw [State.sampleRequest_accepted hreq hiff, State.sampleRequest_accepted (s := s.charged k) hreq hiff]
      exact State.charged_acceptInterrupt { s with request := .idle } k ▸ .of_charged _ k

theorem State.finish_charged {s : State} (hspeed : s.speed = .unthrottled) (k : Count) :
    SameButCount s.finish (s.charged k).finish := by
  obtain hpfx | ⟨x, hpfx⟩ := Option.eq_none_or_eq_some s.pfx
  · rw [State.finish_of_none hpfx, State.finish_of_none (s := s.charged k) hpfx,
      State.boundary_of_unthrottled hspeed, State.boundary_of_unthrottled (s := s.charged k) hspeed]
    exact s.sampleRequest_charged k
  · rw [State.finish_of_prefixed hpfx, State.finish_of_prefixed (s := s.charged k) hpfx]
    exact .of_charged s k

theorem State.idleCycle_charged {s : State} (hspeed : s.speed = .unthrottled) (k : Count) :
    SameButCount s.idleCycle (s.charged k).idleCycle := by
  have hidled : (s.charged k).idled = s.idled.charged k := State.charged_charged { s with r := s.r + 1 } k 4
  rw [State.idleCycle_of_unthrottled hspeed, State.idleCycle_of_unthrottled (s := s.charged k) hspeed, hidled]
  exact s.idled.sampleRequest_charged k

/-- What the core does next and what it reads at PC do not depend on the counter, and what follows an instruction
depends on it only in itself. -/
theorem step_charged {s : State} (hinbox : s.inbox = []) (hspeed : s.speed = .unthrottled) (k : Count) :
    Answers (fun u => Answers (SameButCount u) (step (s.charged k))) (step s) := by
  have hactivity : (s.charged k).activity = s.activity := rfl
  have hinstr : (s.charged k).nextInstr = s.nextInstr := rfl
  unfold step
  rw [State.takeInbox_nil hinbox, State.takeInbox_nil (s := s.charged k) hinbox]
  simp only [hactivity, hinstr]
  cases s.activity with
  | wait => exact .of_next (.of_next (.of_charged s k))
  | idle => exact .of_next (.of_next (State.idleCycle_charged hspeed k))
  | trap kind => exact .of_next (.of_next (.of_charged (s.enterTrap kind) k))
  | execute =>
    obtain ⟨u, hu, hcharged⟩ := exec_charged s.nextInstr s k
    obtain ⟨-, -, -, -, -, -, -, hkeep, -⟩ := (exec_specials s.nextInstr s).of_eq_next hu
    rw [hu, hcharged]
    exact .of_next (.of_next (State.finish_charged (hkeep.trans hspeed) k))

end Sys2Proof.Machine

namespace Sys2Proof.Proofs

open Sys2Proof.Machine

/-- Settles O59: another value of the counter is a charge before the instruction or the step, which comes to a charge
after it. -/
theorem nothingDependsOnTheCycleCounter : Obligations.NothingDependsOnTheCycleCounter := by
  refine ⟨fun i s u n hu => ?_, fun s u n hinbox hspeed hu => ?_⟩
  · rw [← State.charged_sub_tstates]
    exact ⟨_, (exec_charged i s _).of_eq_next hu⟩
  · rw [← State.charged_sub_tstates]
    obtain ⟨v, hv, m, rfl⟩ := (step_charged hinbox hspeed _).of_eq_next hu
    exact ⟨m, hv⟩

end Sys2Proof.Proofs
end

section
/-! PROOFS. The family of 48_control_transfer.md, with the returns of 60_exceptions.md: the jumps set PC, the calls push
it, the returns pop it, and a conditional form is the unconditional one or no more than its fetches. -/

namespace Sys2Proof.Machine

open Spec

/-! ### Conditional forms -/

theorem State.fetched_charged (s : State) (len : Word) (m1 : Byte) (c d : Count) :
    (s.fetched len m1 c).charged d = s.fetched len m1 (c + d) := by
  simp only [State.fetched, State.charged, BitVec.add_assoc]

section

variable {s : State} {cc : Cond}

theorem exec_jpCond_taken (h : s.main.f.holds cc = true) (nn : Word) : exec (.jpCond cc nn) s = exec (.jp nn) s :=
  congrArg Host.Outcome.next (if_pos h)

theorem exec_jpCond_not_taken (h : s.main.f.holds cc = false) (nn : Word) :
    exec (.jpCond cc nn) s = .next (s.fetched 3 1 10) :=
  congrArg Host.Outcome.next (if_neg (Bool.eq_false_iff.1 h))

theorem exec_jrCond_taken (h : s.main.f.holds cc = true) (e : Byte) : exec (.jrCond cc e) s = exec (.jr e) s := by
  refine (congrArg Host.Outcome.next (if_pos h)).trans ?_
  rw [← State.charged_jumpBy, State.fetched_charged]
  rfl

theorem exec_jrCond_not_taken (h : s.main.f.holds cc = false) (e : Byte) :
    exec (.jrCond cc e) s = .next (s.fetched 2 1 7) :=
  congrArg Host.Outcome.next (if_neg (Bool.eq_false_iff.1 h))

theorem exec_callCond_taken (h : s.main.f.holds cc = true) (nn : Word) :
    exec (.callCond cc nn) s = exec (.call nn) s := by
  refine (congrArg Host.Outcome.next (if_pos h)).trans ?_
  rw [← State.charged_callTo, State.fetched_charged]
  rfl

theorem exec_callCond_not_taken (h : s.main.f.holds cc = false) (nn : Word) :
    exec (.callCond cc nn) s = .next (s.fetched 3 1 10) :=
  congrArg Host.Outcome.next (if_neg (Bool.eq_false_iff.1 h))

theorem exec_retCond_taken (h : s.main.f.holds cc = true) :
    exec (.retCond cc) s = .next (s.fetched 1 1 11).returned := by
  refine (congrArg Host.Outcome.next (if_pos h)).trans ?_
  rw [← State.charged_returned, State.fetched_charged]
  rfl

theorem exec_retCond_not_taken (h : s.main.f.holds cc = false) : exec (.retCond cc) s = .next (s.fetched 1 1 5) :=
  congrArg Host.Outcome.next (if_neg (Bool.eq_false_iff.1 h))

/-- B - 1 is 0 where B is 1, and only there. -/
theorem exec_djnz_jumps (h : s.main.b ≠ 1) (e : Byte) :
    exec (.djnz e) s = .next (((s.fetched 2 1 13).setReg .b (s.main.b - 1)).jumpBy e) := by
  refine (congrArg Host.Outcome.next (if_neg (sub_ne_zero.2 h))).trans ?_
  rw [← State.charged_jumpBy, ← State.charged_setReg, State.fetched_charged]
  rfl

theorem exec_djnz_ends (h : s.main.b = 1) (e : Byte) :
    exec (.djnz e) s = .next ((s.fetched 2 1 8).setReg .b (s.main.b - 1)) :=
  congrArg Host.Outcome.next (if_pos (sub_eq_zero.2 h))

end

/-! ### Targets -/

theorem add_sext16_eq_relative (pc : Word) (e : Byte) : pc + 2 + sext16 e = relative pc e := by
  rw [relative, BitVec.ofInt_add, BitVec.ofInt_add, BitVec.ofInt_natCast, BitVec.ofNat_toNat, BitVec.setWidth_eq]
  rfl

theorem restart_target (t : BitVec 3) : t.setWidth 16 <<< 3 = BitVec.ofNat 16 (8 * t.toNat) := by
  revert t
  decide

/-! ### Calls and returns -/

section

variable {i : Instr} {s : State} {len : Word} {m1 : Byte} {cost : Count} (hown : ownIndex i = none)
include hown

theorem goesTo_callTo {target : Word} (hexec : exec i s = .next ((s.fetched len m1 cost).callTo target)) :
    GoesTo i s target m1 cost (Pushed (s.pc + len) s) := by
  rw [GoesTo, hown]
  exact ⟨_, hexec, State.callTo_pc .., ⟨State.callTo_r .., State.callTo_tstates .., State.callTo_pfx ..⟩,
    fun b => (State.readByte_congr (State.callTo_mem ..) b).trans (State.storedWord_push16 _ _ b),
    State.callTo_sp .., congrArg s.unfetched (State.push16_frame (s.fetched len m1 cost) (s.pc + len))⟩

theorem goesTo_returned (hexec : exec i s = .next (s.fetched len m1 cost).returned) :
    GoesTo i s (s.readWord s.sp) m1 cost fun u => u.sp = s.sp + 2 ∧ { s.unfetched u with sp := s.sp } = s := by
  rw [GoesTo, hown]
  exact ⟨_, hexec, rfl, ⟨rfl, rfl, rfl⟩, rfl, rfl⟩

theorem goesTo_returnFromInterrupt (hexec : exec i s = .next (s.fetched len m1 cost).returnFromInterrupt) :
    GoesTo i s (s.readWord s.sp) m1 cost fun u =>
      u.sp = s.sp + 2 ∧ u.iff1 = s.iff2 ∧ { s.unfetched u with sp := s.sp, iff1 := s.iff1 } = s := by
  rw [GoesTo, hown]
  exact ⟨_, hexec, rfl, ⟨rfl, rfl, rfl⟩, rfl, rfl, rfl⟩

/-- An instruction that is no more than its fetches. -/
theorem completes_fetched (hexec : exec i s = .next (s.fetched len m1 cost)) :
    Completes i s len m1 cost (Nothing s) := by
  rw [Completes, hown]
  exact ⟨_, hexec, rfl, ⟨rfl, rfl, rfl⟩, rfl⟩

end

end Sys2Proof.Machine

namespace Sys2Proof.Proofs

open Sys2Proof.Machine Sys2Proof.Spec

/-- Settles O42: a jump sets PC and changes nothing else, or B too. -/
theorem jumpInstructions : Obligations.JumpInstructions := by
  refine ⟨fun s nn => ?jp, fun s cc nn => ?jpCond, fun s e => ?jr, fun s cc e h => ?jrCond_taken,
    fun s cc e h => completes_fetched rfl (exec_jrCond_not_taken h e), fun s => ?jpHL, fun s x => ?jpXY,
    fun s e h => ?djnz_jumps, fun s e h => ?djnz_ends⟩
  case jp => exact ⟨_, rfl, rfl, ⟨rfl, rfl, rfl⟩, rfl⟩
  case jpCond =>
    cases h : s.main.f.holds cc with
    | true => exact ⟨_, exec_jpCond_taken h nn, rfl, ⟨rfl, rfl, rfl⟩, rfl⟩
    | false => exact ⟨_, exec_jpCond_not_taken h nn, rfl, ⟨rfl, rfl, rfl⟩, rfl⟩
  case jr => exact ⟨_, rfl, add_sext16_eq_relative .., ⟨rfl, rfl, rfl⟩, rfl⟩
  case jrCond_taken => exact ⟨_, exec_jrCond_taken h e, add_sext16_eq_relative .., ⟨rfl, rfl, rfl⟩, rfl⟩
  case jpHL => exact ⟨_, rfl, rfl, ⟨rfl, rfl, rfl⟩, rfl⟩
  case jpXY => exact ⟨_, exec_of_runXY (Eq.refl (execJpXY ..)) rfl, rfl, ⟨rfl, rfl, rfl⟩, rfl⟩
  case djnz_jumps =>
    have hkept : ∀ q, q ≠ .b → (s.setReg .b (s.main.b - 1)).reg q = s.reg q := fun q hq =>
      (State.reg_setReg ..).trans (if_neg hq)
    exact ⟨_, exec_djnz_jumps h e, add_sext16_eq_relative .., ⟨rfl, rfl, rfl⟩, rfl, hkept, rfl, rfl⟩
  case djnz_ends =>
    exact (completes_setReg (exec_djnz_ends h e)).mono fun u ⟨hb, hframe⟩ => ⟨hb.trans (sub_eq_zero.2 h), hframe⟩

/-- Settles O43: a call pushes the address after the instruction, a return pops PC, and a form that is not taken is its
fetches alone. -/
theorem callsAndReturns : Obligations.CallsAndReturns :=
  ⟨fun _ _ => goesTo_callTo rfl rfl, fun _ _ nn h => goesTo_callTo rfl (exec_callCond_taken h nn),
    fun _ _ nn h => completes_fetched rfl (exec_callCond_not_taken h nn), fun _ => goesTo_returned rfl rfl,
    fun _ _ h => goesTo_returned rfl (exec_retCond_taken h),
    fun _ _ h => completes_fetched rfl (exec_retCond_not_taken h),
    fun _ t => restart_target t ▸ goesTo_callTo rfl rfl⟩

/-- Settles O44: RETI, RETN and its duplicates have one effect. -/
theorem interruptReturns : Obligations.InterruptReturns := by
  intro s y
  simp only [List.forall_mem_cons]
  exact ⟨goesTo_returnFromInterrupt rfl rfl, goesTo_returnFromInterrupt rfl rfl, goesTo_returnFromInterrupt rfl rfl,
    List.forall_mem_nil _⟩

end Sys2Proof.Proofs
end

section
/-! PROOFS. The family of 49_io.md: an input reads its port and uses up a draw (R123), an output changes nothing (R124),
and the block forms move one byte, count B down and repeat until it is 0. -/

namespace Sys2Proof.Machine

open Spec

/-- B is 0 after its decrement just where it was 1. -/
theorem State.bLeft_iff {s u : State} (hb : u.main.b = s.main.b - 1) : u.bLeft = true ↔ s.main.b ≠ 1 := by
  have hleft : u.bLeft = true ↔ u.main.b ≠ 0 := bne_iff_ne
  rw [hleft, hb]
  exact sub_ne_zero

theorem State.blockIn_keepsFetches (back : Bool) (s : State) : KeepsFetches s (s.blockIn back) :=
  ⟨by simp, by simp, by simp, by simp⟩

theorem State.blockOut_keepsFetches (back : Bool) (s : State) : KeepsFetches s (s.blockOut back) :=
  ⟨rfl, rfl, rfl, rfl⟩

theorem portToMemory_fetched_blockIn (back : Bool) (s : State) (len : Word) (m1 : Byte) (cost : Count) :
    PortToMemory back s ((s.fetched len m1 cost).blockIn back) := by
  have hmain := (s.fetched len m1 cost).writeByte_main s.main.hl (s.portRead s.main.b s.main.c)
  have hframe := (s.fetched len m1 cost).writeByte_frame s.main.hl (s.portRead s.main.b s.main.c)
  exact ⟨State.stored_writeByte (s.fetched len m1 cost) _ _, join_hi_lo _, rfl, beq_iff_eq, rfl,
    (congrArg RegSet.a hmain :), (congrArg RegSet.c hmain :), (congrArg RegSet.de hmain :), State.blockIn_draws ..,
    congrArg (fun t => { s.unfetched t with main := s.main, draws := s.draws }) hframe⟩

theorem memoryToPort_fetched_blockOut (back : Bool) (s : State) (len : Word) (m1 : Byte) (cost : Count) :
    MemoryToPort back s ((s.fetched len m1 cost).blockOut back) :=
  ⟨join_hi_lo _, rfl, beq_iff_eq, rfl, rfl, rfl, rfl, rfl, rfl⟩

theorem portToMemory_repeatIf {back : Bool} {s u : State} (h : PortToMemory back s u) (again : Bool) :
    PortToMemory back s (u.repeatIf again) := by
  cases again <;> exact h

theorem memoryToPort_repeatIf {back : Bool} {s u : State} (h : MemoryToPort back s u) (again : Bool) :
    MemoryToPort back s (u.repeatIf again) := by
  cases again <;> exact h

/-- One iteration of a form that repeats while B is not 0 (R565, R567, R572, R574). -/
theorem iterates_of_bLeft {i : Instr} {s u : State} {post : State → Prop}
    (hexec : exec i s = .next (u.repeatIf u.bLeft)) (hown : ownIndex i = none)
    (hkeeps : KeepsFetches (s.fetched 2 2 16) u) (hb : u.main.b = s.main.b - 1)
    (hpost : ∀ again, post (u.repeatIf again)) :
    (s.main.b = 1 → Completes i s 2 2 16 post) ∧ (s.main.b ≠ 1 → GoesTo i s s.pc 2 21 post) := by
  refine ⟨fun h => ?_, fun h => goesTo_of_repeatIf hexec ((State.bLeft_iff hb).2 h) hown hkeeps (hpost _)⟩
  have hlast : ¬ u.bLeft = true := mt (State.bLeft_iff hb).1 (not_not_intro h)
  exact completes_of_repeatIf hexec hlast (hown ▸ hkeeps) (hpost false)

end Sys2Proof.Machine

namespace Sys2Proof.Proofs

open Sys2Proof.Machine Sys2Proof.Spec

/-- Settles O46: IN A,(n) keeps F, and the forms through (B, C) set it from the byte read. -/
theorem portInputs : Obligations.PortInputs := by
  refine ⟨fun s n => ?inAN, fun s r => ?inRC, fun s => ?inFC⟩
  case inAN =>
    refine completes_of_keepsFetches rfl ⟨rfl, rfl, rfl, rfl⟩ ⟨rfl, rfl, rfl, fun q hq => ?_, rfl⟩
    exact (State.reg_setReg ..).trans (if_neg hq)
  case inRC =>
    refine completes_of_keepsFetches rfl ⟨rfl, rfl, rfl, rfl⟩
      ⟨?_, signZeroParity_setSZP s.main.f _, rfl, rfl, (congrArg Flags.c (RegSet.set_f s.main r _) :), rfl,
        fun q hq => ?_, rfl⟩
    · cases r <;> rfl
    · cases r <;> cases q <;> trivial
  case inFC =>
    exact completes_of_keepsFetches rfl ⟨rfl, rfl, rfl, rfl⟩ ⟨signZeroParity_setSZP s.main.f _, rfl, rfl, rfl, rfl, rfl⟩

/-- Settles O47: a port write has no effect, so an output is its fetches alone. -/
theorem portOutputs : Obligations.PortOutputs :=
  ⟨fun _ _ => completes_fetched rfl rfl, fun _ _ => completes_fetched rfl rfl, fun _ => completes_fetched rfl rfl⟩

/-- Settles O48: the four are `State.blockIn` and `State.blockOut`, and the repeating ones end at their first byte
unless B was 1. -/
theorem blockInputAndOutput : Obligations.BlockInputAndOutput := by
  have hkeepsIn := fun (back : Bool) (s : State) => (s.fetched 2 2 16).blockIn_keepsFetches back
  have hkeepsOut := fun (back : Bool) (s : State) => (s.fetched 2 2 16).blockOut_keepsFetches back
  have hin := fun (back : Bool) (s : State) => portToMemory_fetched_blockIn back s 2 2 16
  have hout := fun (back : Bool) (s : State) => memoryToPort_fetched_blockOut back s 2 2 16
  have hinir (s : State) := iterates_of_bLeft (i := .inir) rfl rfl (hkeepsIn false s) rfl
    (portToMemory_repeatIf (hin false s))
  have hindr (s : State) := iterates_of_bLeft (i := .indr) rfl rfl (hkeepsIn true s) rfl
    (portToMemory_repeatIf (hin true s))
  have hotir (s : State) := iterates_of_bLeft (i := .otir) rfl rfl (hkeepsOut false s) rfl
    (memoryToPort_repeatIf (hout false s))
  have hotdr (s : State) := iterates_of_bLeft (i := .otdr) rfl rfl (hkeepsOut true s) rfl
    (memoryToPort_repeatIf (hout true s))
  refine ⟨fun s => ⟨?_, ?_, ?_, ?_⟩,
    fun s hb => ⟨(hinir s).1 hb, (hindr s).1 hb, (hotir s).1 hb, (hotdr s).1 hb⟩,
    fun s hb => ⟨(hinir s).2 hb, (hindr s).2 hb, (hotir s).2 hb, (hotdr s).2 hb⟩⟩
  · exact completes_of_keepsFetches rfl (hkeepsIn false s) (hin false s)
  · exact completes_of_keepsFetches rfl (hkeepsIn true s) (hin true s)
  · exact completes_of_keepsFetches rfl (hkeepsOut false s) (hout false s)
  · exact completes_of_keepsFetches rfl (hkeepsOut true s) (hout true s)

end Sys2Proof.Proofs
end

section
/-! PROOFS. The family of 60_exceptions.md and 70_reset_and_hazards.md: the sampling of a request at a boundary (R603 to
R606, R610), reset and power-on (R700 to R703), the throttle (R650, R651), the host actions (R620 to R622) and the tape
traps (R640, R641). -/

namespace Sys2Proof.Machine

/-! ### Sampling at a boundary -/

/-- With no interrupt to accept and no reset, sampling clears the request and no more (R605). -/
theorem State.sampleRequest_of_idle_or_dropped {s : State}
    (h : s.request = .idle ∨ s.request = .pendingInterrupt ∧ s.iff1 = false) :
    s.sampleRequest = { s with request := .idle } := by
  obtain hidle | ⟨hreq, hiff⟩ := h
  · simp [State.sampleRequest, hidle]
  · exact State.sampleRequest_dropped hreq hiff

@[simp] theorem State.sampleRequest_run (s : State) : s.sampleRequest.run = s.run := by
  unfold State.sampleRequest
  split
  · rfl
  · split
    · exact State.acceptInterrupt_run _
    · rfl
  · rfl

/-- After the sampling only `run` may change. -/
theorem State.finish_eq_sampleRequest {s : State} (h : s.pfx = none) :
    ∃ r : RunState, s.finish = { s.sampleRequest with run := r } := by
  obtain ⟨r, hb, -⟩ := s.boundary_cases
  exact ⟨r, (State.finish_of_none h).trans hb⟩

theorem State.acceptInterrupt_frame (s : State) :
    { s.acceptInterrupt with
      mem := s.mem, sp := s.sp, pc := s.pc, iff1 := s.iff1, iff2 := s.iff2, halted := s.halted, r := s.r,
      tstates := s.tstates } = s :=
  congrArg
    (fun t : State => { t with
      pc := s.pc, iff1 := s.iff1, iff2 := s.iff2, halted := s.halted, r := s.r, tstates := s.tstates })
    (s.push16_frame s.pc)

/-! ### The throttle -/

theorem State.throttleCheck_run (s : State) : s.throttleCheck.run =
    if s.speed = .normal ∧ s.params.tstatesPerTick < s.tstates.toNat then .suspended else s.run :=
  apply_ite State.run ..

theorem State.throttleCheck_tstates (s : State) : s.throttleCheck.tstates = s.tstates := by
  unfold State.throttleCheck
  split <;> rfl

/-- After a reset the counter is 0, which is above no budget. -/
theorem State.throttleCheck_of_zero {s : State} (h : s.tstates = 0) : s.throttleCheck = s := by
  simp [State.throttleCheck, h]

/-! ### Steps of a core that waits or is at a trap address -/

theorem step_of_waiting {s : State} (h : s.takeInbox.run ≠ .running) : step s = .next s.takeInbox := by
  unfold step
  simp only [State.activity_wait h]

theorem step_wait {s : State} (hinbox : s.inbox = []) (hrun : s.run ≠ .running) : step s = .next s := by
  have hstep := step_of_waiting (s := s)
  rw [State.takeInbox_nil hinbox] at hstep
  exact hstep hrun

theorem step_trap {s : State} {k : TrapKind} (hinbox : s.inbox = []) (hrun : s.run = .running)
    (hhalted : s.halted = false) (hpfx : s.pfx = none) (htrap : s.trapAt = some k) :
    step s = .next (s.enterTrap k) := by
  unfold step
  rw [State.takeInbox_nil hinbox]
  simp only [State.activity_trap hrun hhalted hpfx htrap]

theorem State.trapAt_load {s : State} (h : s.params.trapEnabled = true) (hpc : s.pc = s.params.trapLoad) :
    s.trapAt = some .load := by
  simp [State.trapAt, h, hpc]

theorem State.trapAt_save {s : State} (h : s.params.trapEnabled = true) (hpc : s.pc = s.params.trapSave)
    (hload : s.pc ≠ s.params.trapLoad) : s.trapAt = some .save := by
  rw [State.trapAt, if_pos h, if_neg hload, if_pos hpc]

theorem State.trapAt_disabled {s : State} (h : s.params.trapEnabled = false) : s.trapAt = none := by
  simp [State.trapAt, h]

/-! ### Host actions -/

theorem State.tick_of_suspended {s : State} (h : s.run = .suspended) : s.tick =
    { s with
      request := if s.request = .idle then .pendingInterrupt else s.request
      tstates := 0
      run := .running } := by
  unfold State.tick
  split <;> simp [h]

theorem State.tick_of_not_suspended {s : State} (h : s.run ≠ .suspended) :
    s.tick = { s with request := if s.request = .idle then .pendingInterrupt else s.request } := by
  unfold State.tick
  split <;> simp [h]

theorem State.tapeReturn_of_trapWait {s : State} {k : TrapKind} (h : s.run = .trapWait k) (x : TapeResult) :
    s.tapeReturn x =
      { x.stores.foldl (fun t p => t.writeByte p.1 p.2) s with
        main := x.main, alt := x.alt, ix := x.ix, iy := x.iy, sp := x.sp, pc := x.pc, run := .running } := by
  rw [State.tapeReturn, h]

theorem State.tapeReturn_of_not_trapWait {s : State} (h : ∀ k, s.run ≠ .trapWait k) (x : TapeResult) :
    s.tapeReturn x = s := by
  unfold State.tapeReturn
  split
  · next k hk => exact absurd hk (h k)
  · rfl

/-- A waiting core waits on, but for the one action that its wait is for. -/
theorem State.hostAction_run_of_waiting {s : State} {e : HostEvent}
    (h : (s.run = .suspended ∧ e ≠ .tick) ∨ (∃ k, s.run = .trapWait k) ∧ ∀ x, e ≠ .tapeReturn x) :
    (s.hostAction e).run = s.run := by
  cases e with
  | resetRequest => rfl
  | setSpeed v => rfl
  | tick =>
    obtain ⟨-, he⟩ | ⟨⟨k, hk⟩, -⟩ := h
    · exact absurd rfl he
    · rw [State.hostAction, State.tick_of_not_suspended (by simp [hk])]
  | tapeReturn x =>
    obtain ⟨hrun, -⟩ | ⟨-, he⟩ := h
    · rw [State.hostAction, State.tapeReturn_of_not_trapWait (by simp [hrun])]
    · exact absurd rfl (he x)

/-- `s` with `b` as the host actions to come. -/
def State.withInbox (s : State) (b : List (List HostEvent)) : State := { s with inbox := b }

theorem State.writeByte_withInbox (s : State) (b : List (List HostEvent)) (a : Word) (v : Byte) :
    (s.withInbox b).writeByte a v = (s.writeByte a v).withInbox b := by
  rw [State.writeByte, State.writeByte, apply_ite (State.withInbox · b)]
  rfl

theorem State.stores_withInbox (ps : List (Word × Byte)) (s : State) (b : List (List HostEvent)) :
    ps.foldl (fun t p => t.writeByte p.1 p.2) (s.withInbox b) =
      (ps.foldl (fun t p => t.writeByte p.1 p.2) s).withInbox b :=
  List.foldl_hom (State.withInbox · b) fun t p => t.writeByte_withInbox b p.1 p.2

/-- A host action neither reads nor writes those that are still to come. -/
theorem State.hostAction_withInbox (s : State) (b : List (List HostEvent)) (e : HostEvent) :
    (s.withInbox b).hostAction e = (s.hostAction e).withInbox b := by
  cases e with
  | resetRequest => rfl
  | setSpeed v => rfl
  | tick =>
    by_cases h : s.run = .suspended
    · simp only [State.hostAction, State.tick_of_suspended h, State.tick_of_suspended (s := s.withInbox b) h]
      rfl
    · simp only [State.hostAction, State.tick_of_not_suspended h,
        State.tick_of_not_suspended (s := s.withInbox b) h]
      rfl
  | tapeReturn x =>
    by_cases h : ∃ k, s.run = .trapWait k
    · obtain ⟨k, hk⟩ := h
      simp only [State.hostAction, State.tapeReturn_of_trapWait hk,
        State.tapeReturn_of_trapWait (s := s.withInbox b) hk, State.stores_withInbox]
      rfl
    · have h := not_exists.1 h
      simp only [State.hostAction, State.tapeReturn_of_not_trapWait h,
        State.tapeReturn_of_not_trapWait (s := s.withInbox b) h]

theorem step_eq_of_takeInbox_eq {s t : State} (h : s.takeInbox = t.takeInbox) : step s = step t := by
  unfold step
  rw [h]

/-- The first of the actions that arrive may as well have acted before. -/
theorem State.takeInbox_cons {s : State} {e : HostEvent} {es : List HostEvent} {rest : List (List HostEvent)}
    (h : s.inbox = (e :: es) :: rest) : s.takeInbox = ((s.hostAction e).withInbox (es :: rest)).takeInbox := by
  rw [State.takeInbox, h]
  exact congrArg (es.foldl State.hostAction) (s.hostAction_withInbox rest e)

theorem step_cons {s : State} {e : HostEvent} {es : List HostEvent} {rest : List (List HostEvent)}
    (h : s.inbox = (e :: es) :: rest) : step s = step ((s.hostAction e).withInbox (es :: rest)) :=
  step_eq_of_takeInbox_eq (State.takeInbox_cons h)

end Sys2Proof.Machine

namespace Sys2Proof.Proofs

open Sys2Proof.Machine

/-- Settles O52: the sampling of the request has one of its outcomes, after which the throttle writes `run` alone. -/
theorem interruptSampling : Obligations.InterruptSampling := by
  refine ⟨fun s hpfx hreq hiff => ?_, fun s hpfx h => ?_, fun s hpfx => ?_⟩
  · obtain ⟨r, hfinish⟩ := State.finish_eq_sampleRequest hpfx
    rw [State.sampleRequest_accepted hreq hiff] at hfinish
    rw [hfinish]
    refine ⟨State.storedWord_acceptInterrupt { s with request := .idle }, by simp, by simp [interruptVector], by simp,
      by simp, by simp, by simp, by simp [Config.intAckT], by simp, ?_⟩
    exact congrArg (fun t : State => { t with request := s.request, run := s.run })
      (State.acceptInterrupt_frame { s with request := .idle })
  · obtain ⟨r, hfinish⟩ := State.finish_eq_sampleRequest hpfx
    rw [hfinish, State.sampleRequest_of_idle_or_dropped h]
    exact ⟨rfl, rfl⟩
  · obtain ⟨x, hx⟩ := Option.ne_none_iff_exists'.1 hpfx
    exact State.finish_of_prefixed hx

/-- Settles O53: after the reset of the core the counter is 0, so the throttle leaves `run` as it was. -/
theorem resetAtBoundary : Obligations.ResetAtBoundary := by
  intro s hpfx hreq
  rw [State.finish_of_none hpfx, State.boundary, State.sampleRequest_reset hreq, State.throttleCheck_of_zero rfl]
  rfl

/-- Settles O54: the fields are read off `State.reset`, and the bank of an address is its number divided by 0x2000. -/
theorem powerOnState : Obligations.PowerOnState := by
  refine ⟨fun r => ?_, rfl, rfl, fun x => ?_, rfl, rfl, rfl, rfl, rfl, rfl, rfl, rfl, rfl, rfl, rfl, rfl, rfl,
    fun a => ?_⟩
  · cases r <;> exact ⟨rfl, rfl⟩
  · cases x <;> rfl
  · have hbank : ∀ k : BitVec 3, State.reset.params.bankWritable.get k.toFin = decide (1 ≤ k.toNat) := by decide
    rw [State.writable, hbank, BitVec.extractLsb'_toNat, Nat.shiftRight_eq_div_pow, decide_eq_decide]
    omega

/-- Settles O55: an action commutes with taking it from the inbox, and one that does not end a wait leaves `run`. -/
theorem hostActions : Obligations.HostActions := by
  refine ⟨fun _ _ _ _ => step_cons, fun s => ?tick, fun _ => rfl, fun _ _ => rfl,
    fun s e rest hwait hinbox => ?waiting⟩
  case tick =>
    by_cases h : s.run = .suspended
    · rw [State.hostAction, State.tick_of_suspended h]
      exact ⟨rfl, fun _ => ⟨rfl, rfl⟩, fun hne => absurd h hne, rfl⟩
    · rw [State.hostAction, State.tick_of_not_suspended h]
      exact ⟨rfl, fun hs => absurd hs h, fun _ => ⟨rfl, rfl⟩, rfl⟩
  case waiting =>
    have hrun := State.hostAction_run_of_waiting hwait
    have hwaits : s.run ≠ .running := by
      obtain ⟨h, -⟩ | ⟨⟨k, h⟩, -⟩ := hwait <;> simp [h]
    rw [step_cons hinbox]
    exact ⟨step_of_waiting (hrun.trans_ne hwaits), hrun⟩

/-- Settles O56: the sampling keeps what the throttle compares but for the counter, and a suspended core waits. -/
theorem throttleSuspends : Obligations.ThrottleSuspends := by
  refine ⟨fun s hpfx => ?_, fun s hinbox hrun => step_wait hinbox (by simp [hrun])⟩
  rw [State.finish_of_none hpfx, State.boundary, State.throttleCheck_run, State.throttleCheck_tstates,
    State.sampleRequest_speed, State.sampleRequest_params, State.sampleRequest_run]

/-- Settles O58: the trap check precedes the fetch, and the routine is a row of byte stores and then a record update. -/
theorem tapeTraps : Obligations.TapeTraps := by
  refine ⟨fun s hinbox hrun hhalted hpfx htrap => ⟨fun hpc => ?_, fun hpc hload => ?_⟩,
    fun s => State.trapAt_disabled, fun s k hrun => ⟨fun hinbox => ?_, fun x => ?_⟩⟩
  · exact step_trap hinbox hrun hhalted hpfx (State.trapAt_load htrap hpc)
  · exact step_trap hinbox hrun hhalted hpfx (State.trapAt_save htrap hpc hload)
  · exact step_wait hinbox (by simp [hrun])
  · rw [State.hostAction, State.tapeReturn_of_trapWait hrun]
    refine ⟨rfl, rfl, rfl, rfl, rfl, rfl, rfl, ?_, rfl, State.readByte_stores x.stores s⟩
    exact congrArg
      (fun t : State => { t with
        main := s.main, alt := s.alt, ix := s.ix, iy := s.iy, sp := s.sp, pc := s.pc, run := s.run })
      (State.stores_frame x.stores s)

end Sys2Proof.Proofs
end

section
/-! PROOFS. The index prefix of an instruction that has its own, taken by the instruction or in a sub-step before it
(30_encoding.md section 3, log 9). -/

namespace Sys2Proof.Machine

theorem State.ownPrefix_takePrefix {s : State} {x : IndexReg} (h : s.pfx ≠ some x) :
    (s.takePrefix x).ownPrefix x = s.ownPrefix x := by
  rw [State.ownPrefix_of_taken (State.takePrefix_pfx s x), State.ownPrefix_of_not_taken h]

end Sys2Proof.Machine

namespace Sys2Proof.Proofs

open Sys2Proof.Machine

/-- Settles O51: each of these instructions starts from `State.ownPrefix`, which is all that reads `prefix`. -/
theorem ownPrefixTakenOnce : Obligations.OwnPrefixTakenOnce := by
  intro i x s hown hpfx
  cases i
  all_goals cases hown
  -- left are the instructions with an own prefix
  all_goals exact congrArg Host.Outcome.next (by rw [State.ownPrefix_takePrefix hpfx])

end Sys2Proof.Proofs
end
